-- ==== Sys2Proof/Word.lean ====
section
/-! DEFINITION. The words of the part's ports and the eight lines, with a record that holds one item for each line. -/

namespace Sys2Proof

/-- A byte on one of the part's ports. -/
abbrev Byte := BitVec 8

/-- A 16-bit field of a request (a vessel code, a tension, an interval). -/
abbrev Half := BitVec 16

/-- The lines are numbered Line 0 to Line 7 (00_scope 4.3). -/
inductive Line where
  | l0 | l1 | l2 | l3 | l4 | l5 | l6 | l7
deriving DecidableEq, Repr, Inhabited

/-- The eight lines in the order of their numbers. -/
def Line.all : List Line := [.l0, .l1, .l2, .l3, .l4, .l5, .l6, .l7]

/-- One item for each line: the blocks with "8 channels" of 00_scope 2, and sets of lines. -/
structure Lines (α : Type) where
  l0 : α
  l1 : α
  l2 : α
  l3 : α
  l4 : α
  l5 : α
  l6 : α
  l7 : α
deriving DecidableEq, Repr, Inhabited

/-- A set of lines, Line 0 to Line 7. -/
abbrev LineSet := Lines Bool

namespace Lines

variable {α β : Type}

/-- The item of one line. -/
def get (x : Lines α) : Line → α
  | .l0 => x.l0 | .l1 => x.l1 | .l2 => x.l2 | .l3 => x.l3
  | .l4 => x.l4 | .l5 => x.l5 | .l6 => x.l6 | .l7 => x.l7

/-- The items with one line's replaced. -/
def set (x : Lines α) (l : Line) (a : α) : Lines α :=
  match l with
  | .l0 => { x with l0 := a } | .l1 => { x with l1 := a }
  | .l2 => { x with l2 := a } | .l3 => { x with l3 := a }
  | .l4 => { x with l4 := a } | .l5 => { x with l5 := a }
  | .l6 => { x with l6 := a } | .l7 => { x with l7 := a }

/-- The items computed line by line. -/
def ofFn (f : Line → α) : Lines α :=
  ⟨f .l0, f .l1, f .l2, f .l3, f .l4, f .l5, f .l6, f .l7⟩

/-- The same item for every line. -/
def const (a : α) : Lines α := ofFn fun _ => a

/-- Every item changed by a function of its line and its value. -/
def imap (f : Line → α → β) (x : Lines α) : Lines β := ofFn fun l => f l (x.get l)

/-- Every line's item meets `p`. -/
def allB (x : Lines α) (p : Line → α → Bool) : Bool := Line.all.all fun l => p l (x.get l)

/-- Some line's item meets `p`. -/
def anyB (x : Lines α) (p : Line → α → Bool) : Bool := Line.all.any fun l => p l (x.get l)

end Lines

end Sys2Proof
end

