-- ==== Sys2Proof/Syntax.lean ====
section
/-! DEFINITION. The commands of the part: one constructor of `Instr` for each row of spec/opcode_table.json, with the
requests, events and frames that rows carry. -/

namespace Sys2Proof

/-- The two masters (00_scope 1). -/
inductive Master where
  | shore | vessel
deriving DecidableEq, Repr, Inhabited

/-- Who sends a request: the shore, or a vessel with the vessel code its message carries (R164, R182). -/
inductive Sender where
  | shore
  | vessel (code : Half)
deriving DecidableEq, Repr, Inhabited

/-- The three panel inputs (00_scope 3.1, R139). -/
inductive PanelInput where
  | trip | stop | rampClear
deriving DecidableEq, Repr, Inhabited

/-- The phases at which a missing acknowledge ends a transaction (R150, R151). -/
inductive NoAck where
  | absent | indexRefused | dataRefused
deriving DecidableEq, Repr, Inhabited

/-- The ten line commands carried in a LINE_COMMAND request (4.4). -/
inductive LineCommand where
  | attach | cancel | release | trip | rewind | resume
  | setTarget (tension : Half)
  | rebase | zero | clearFault
deriving DecidableEq, Repr, Inhabited

/-- The mode field of a submitted step: EASE, TRIP or neither (R111, R112). -/
inductive StepModeField where
  | ease | trip | other
deriving DecidableEq, Repr, Inhabited

/-- One step as a PLAN_SUBMIT carries it (R111): the delay is not yet clamped and the mode not yet judged. -/
structure PlanStepField where
  lines : LineSet
  delay : Half
  mode  : StepModeField
deriving DecidableEq, Repr, Inhabited

/-- The mode field of a SET_REPORTING: STREAM, EVENT or neither (R176). -/
inductive ReportModeField where
  | stream | event | other
deriving DecidableEq, Repr, Inhabited

/-- The event kinds of R178. -/
inductive EventKind where
  | resetSeen | lineState | render | allowance | surge | fault | easeFailed | attachExpired | snag | payoutEnd
  | refReseed | zeroDone | zeroError | trip | plan | call | permit | stop | store
deriving DecidableEq, Repr, Inhabited

/-- One selection per event kind: a mask (R166, R176, R179), or the kinds present under one tag (R179). -/
structure KindSet where
  resetSeen     : Bool
  lineState     : Bool
  render        : Bool
  allowance     : Bool
  surge         : Bool
  fault         : Bool
  easeFailed    : Bool
  attachExpired : Bool
  snag          : Bool
  payoutEnd     : Bool
  refReseed     : Bool
  zeroDone      : Bool
  zeroError     : Bool
  trip          : Bool
  plan          : Bool
  call          : Bool
  permit        : Bool
  stop          : Bool
  store         : Bool
deriving DecidableEq, Repr, Inhabited

/-- The requests of R163's owner table, with their fields. `unknown` is a kind that is none of them, with the line or record
byte of its Shore header (00H for a Vessel message, whose layout has no such byte), and `unknownCommand` a LINE_COMMAND whose
command is none of the ten. A BIND's vessel code is its message's. -/
inductive Request where
  | unknown (kind line : Byte)
  | unknownCommand (line : Byte) (command : Byte)
  | lineCommand (line : Byte) (command : LineCommand)
  | tripAll
  | planSubmit (steps : List PlanStepField)
  | planHold
  | planResume
  | planAbort
  | bind (lines : LineSet)
  | unbind
  | closeCall
  | clearCaptures
  | selectRepeater (line : Option Byte)
  | readProfile (record : Byte)
  | writeProfile (record : Byte) (bytes : List Byte)
  | lockProfile (record : Byte)
  | commissionProfile (record : Byte)
  | verifyStore
  | readLine (line : Byte)
  | readCall
  | readPlan
  | readCaptures
  | readEvents
  | setMask (mask : KindSet)
  | ackReset
  | setReporting (mode : ReportModeField) (interval : Half) (mask : KindSet)
  | softReset
deriving DecidableEq, Repr, Inhabited

/-- The six bytes of a module's status block, in their order (R183). -/
structure StatusBytes where
  brake     : Byte
  latch     : Byte
  stow      : Byte
  drive     : Byte
  faultCode : Byte
  sequence  : Byte
deriving DecidableEq, Repr, Inhabited

/-- The commands: the rows of spec/opcode_table.json, in the table's order. -/
inductive Instr where
  | powerOn
  | pinReset
  | resetCompletion
  | sampleBoundary (line : Line)
  | goodSample (line : Line) (ticks : BitVec 24)
  | gateDeadline (line : Line)
  | tickCountOverflow (line : Line)
  | holdTimerExpiry (line : Line)
  | encoderChange (line : Line) (a b : Bool)
  | stationaryExpiry (line : Line)
  | flankExpiry
  | selectRepeater (sender : Sender) (selection : Option Byte)
  | attach (sender : Sender) (line : Byte)
  | cancel (sender : Sender) (line : Byte)
  | release (sender : Sender) (line : Byte)
  | trip (sender : Sender) (line : Byte)
  | rewind (sender : Sender) (line : Byte)
  | resume (sender : Sender) (line : Byte)
  | setTarget (sender : Sender) (line : Byte) (tension : Half)
  | rebase (sender : Sender) (line : Byte)
  | zero (sender : Sender) (line : Byte)
  | clearFault (sender : Sender) (line : Byte)
  | tripAll (sender : Sender)
  | attachExpired (line : Line)
  | easeFailed (line : Line)
  | tensionTimeout (line : Line)
  | latchStuck (line : Line)
  | rewindTimeout (line : Line)
  | adoptionLatchExpiry (line : Line)
  | planSubmit (sender : Sender) (steps : List PlanStepField)
  | planHold (sender : Sender)
  | planResume (sender : Sender)
  | planAbort (sender : Sender)
  | stepDelayExpiry
  | stepTimeout
  | bind (code : Half) (lines : LineSet)
  | unbind (code : Half)
  | closeCall (sender : Sender)
  | clearCaptures (sender : Sender)
  | panelInputChange (input : PanelInput) (level : Bool)
  | panelStabilityExpiry (input : PanelInput)
  | transactionStart
  | commandComplete
  | statusComplete (bytes : StatusBytes)
  | transactionFailed (why : NoAck)
  | busStuck
  | busRecoveryEnd
  | frameStart
  | frameRelease (count : Nat) (midByte : Bool) (frame : List Byte)
  | readLine (sender : Sender) (line : Byte)
  | readCall (sender : Sender)
  | readPlan (sender : Sender)
  | readCaptures (sender : Sender)
  | readEvents (sender : Sender)
  | setMask (sender : Sender) (mask : KindSet)
  | ackReset (sender : Sender)
  | softReset (sender : Sender)
  | setReporting (code : Half) (mode : ReportModeField) (interval : Half) (mask : KindSet)
  | vesselMessageReceived
  | gapTimerExpiry
  | transmitEnd
  | reportTimerExpiry
  | readProfile (sender : Sender) (record : Byte)
  | writeProfile (sender : Sender) (record : Byte) (bytes : List Byte)
  | lockProfile (sender : Sender) (record : Byte)
  | commissionProfile (sender : Sender) (record : Byte)
  | verifyStore (sender : Sender)
  | writeProgrammingEnd (readBack : List Byte)
  | lockProgrammingEnd
  | gateOpeningEdge (line : Line)
  | shoreDecodeEnd
  | vesselByteReceived (byte : Byte) (goodStop : Bool)
deriving DecidableEq, Repr, Inhabited

end Sys2Proof
end

