-- ==== Sys2Proof/Machine/State.lean ====
section
/-! DEFINITION. The state of the part: every register, record, queue, counter, flag and pin the spec gives it, block by block,
and its value right after a POWER_ON reset. -/

namespace Sys2Proof.Machine

/-! ## Names the blocks share -/

/-- The kinds of reset (R192). -/
inductive ResetCause where
  | powerOn | pin | soft
deriving DecidableEq, Repr, Inhabited

/-- The fifteen line states (R61). -/
inductive LineState where
  | disabled | adopting | stowed | attaching | tensioning | holding | rendering | recovering
  | easing | unlatching | slackOut | rewinding | tripped | halted | fault
deriving DecidableEq, Repr, Inhabited

/-- The resume states of a HALTED line (R59, R88). -/
inductive Resume where
  | attaching | tensioning | easing | rewinding
deriving DecidableEq, Repr, Inhabited

/-- The eight fault causes (R93). -/
inductive FaultCause where
  | sensorLost | encoder | driveLost | driveFault | latchStuck | latchLost | tensionTimeout | rewindTimeout
deriving DecidableEq, Repr, Inhabited

/-- Brake intents (R61, R183). -/
inductive Brake where
  | apply | release | drag | modulate
deriving DecidableEq, Repr, Inhabited

/-- Drive intents (R61, R183). -/
inductive Drive where
  | stop | haul
deriving DecidableEq, Repr, Inhabited

/-- Latch intents (R61, R183). -/
inductive LatchIntent where
  | rest | arm | hold | release
deriving DecidableEq, Repr, Inhabited

/-- The drive intent of a line (R59, 4.2): brake, drive, speed in mm/s, latch, and the urgent mark. -/
structure Intent where
  brake  : Brake
  drive  : Drive
  speed  : Nat
  latch  : LatchIntent
  urgent : Bool
deriving DecidableEq, Repr, Inhabited

/-- Latch as a module senses it (R152, R183). -/
inductive Latch where
  | opened | closed | moving
deriving DecidableEq, Repr, Inhabited

/-- A status report as decoded by R152: brake and drive state are kept as read. `old` marks a report recorded before the
line's last entry into ADOPTING (R77). -/
structure SensedStatus where
  brake     : Byte
  latch     : Latch
  stow      : Bool
  drive     : Byte
  faultCode : Byte
  sequence  : Byte
  old       : Bool
deriving DecidableEq, Repr, Inhabited

/-- The four level pairs of a quadrature pair, by A and B: Q0 low low, Q1 high low, Q2 high high, Q3 low high (3.1). -/
inductive Quad where
  | q0 | q1 | q2 | q3
deriving DecidableEq, Repr, Inhabited

/-- A record of the Profile Store: 0 to 7 the Line Profiles, 8 the Berth Profile (chapter 10). -/
inductive RecordName where
  | line (l : Line)
  | berth
deriving DecidableEq, Repr, Inhabited

/-- The tag of an event: a line or the berth (R178). -/
inductive Tag where
  | line (l : Line)
  | berth
deriving DecidableEq, Repr, Inhabited

/-- A pending set: the kinds present under each line and under the berth (R178, R179). -/
structure EventSet where
  lines : Lines KindSet
  berth : KindSet
deriving DecidableEq, Repr, Inhabited

/-! ## Profiles -/

/-- The fields of a Line Profile (R186). -/
structure LineProfile where
  enabled        : Bool
  autoZero       : Bool
  autoRewind     : Bool
  driveAddress   : Nat
  gateCode       : Nat
  betaF          : Nat
  betaR          : Nat
  zero16         : Nat
  span           : Nat
  zeroBand       : Nat
  targetMin      : Nat
  targetDefault  : Nat
  targetMax      : Nat
  renderLimit    : Nat
  renderHyst     : Nat
  slackRatio     : Nat
  surgeThreshold : Nat
  surgeHyst      : Nat
  debounceIn     : Nat
  debounceOut    : Nat
  haltThreshold  : Nat
  haltLimit      : Nat
  releaseTension : Nat
  snagLimit      : Nat
  kr             : Nat
  i              : Nat
  f              : Nat
  d              : Nat
  vMax           : Nat
  vStop          : Nat
  allowance      : Nat
  stepUm         : Nat
  payoutMax      : Nat
  softZone       : Nat
  haulSpeed      : Nat
  recoverSpeed   : Nat
  easeSpeed      : Nat
  rewindSpeed    : Nat
  softSpeed      : Nat
  attachLimit    : Nat
  tensionLimit   : Nat
  easeLimit      : Nat
  latchLimit     : Nat
  rewindLimit    : Nat
deriving DecidableEq, Repr, Inhabited

/-- The fields of the Berth Profile (R186). -/
structure BerthProfile where
  berthCode      : Half
  stepLimit      : Nat
  reportInterval : Nat
  repeaterUnit   : Nat
  flankDelay     : Nat
  discard        : Bool
deriving DecidableEq, Repr, Inhabited

/-! ## Load Measurement Unit (chapter 1) -/

/-- The gate of a channel (R1). -/
inductive Gate where
  | idle | armed | counting
deriving DecidableEq, Repr, Inhabited

/-- The sample rate classes (R7). -/
inductive RateClass where
  | quiet | watch | active
deriving DecidableEq, Repr, Inhabited

/-- A zero capture in progress (R21). -/
structure ZeroCapture where
  count : Nat
  sum   : Nat
deriving DecidableEq, Repr, Inhabited

/-- One LMU channel (R1). A timer is `none` when stopped, else its remaining ms. -/
structure LmuChannel where
  gate          : Gate
  gUsed         : Nat
  deadline      : Option Nat
  tickCount     : Nat
  deferred      : Bool
  sampleTimer   : Option Nat
  rateClass     : Option RateClass
  f16           : Nat
  tRaw          : Nat
  fAcc          : Int
  rAcc          : Int
  seeded        : Bool
  missCount     : Nat
  holdTimer     : Option Nat
  zeroCapture   : Option ZeroCapture
  workingZero16 : Nat
  peak          : Int
  stateView     : LineState
  counterView   : Bool
  surgeView     : Bool
  assignedView  : Bool
deriving DecidableEq, Repr, Inhabited

/-! ## Condition Detector (chapter 2) -/

/-- The five conditions that lead to a change of line state (R25, R26). -/
inductive Condition where
  | render | slack | target | release | snag
deriving DecidableEq, Repr, Inhabited

/-- One item for each of the five conditions. -/
structure Conditions (α : Type) where
  render  : α
  slack   : α
  target  : α
  release : α
  snag    : α
deriving DecidableEq, Repr, Inhabited

/-- One Condition Detector channel (R25). -/
structure DetectorChannel where
  stateView        : LineState
  counters         : Conditions Nat
  active           : Conditions Bool
  surgeCounter     : Nat
  surgeFlag        : Bool
  pendingIndicator : Bool
deriving DecidableEq, Repr, Inhabited

/-! ## Drum Counter and Length Repeater (chapter 3) -/

/-- One Drum Counter channel (R42). -/
structure DrumChannel where
  decoder         : Quad
  position        : Int
  referenced      : Bool
  errorCount      : Nat
  stepAcc         : Int
  windowStart     : Nat
  speed           : Int
  stationaryTimer : Option Nat
  stationary      : Bool
  softZone        : Bool
  softZoneSteps   : Nat
  payoutMaxSteps  : Nat
deriving DecidableEq, Repr, Inhabited

/-- The Length Repeater's record (R53). -/
structure Repeater where
  selected     : Option Line
  unitSteps    : Nat
  band         : Option Int
  pendingCount : Int
  output       : Quad
  flankTimer   : Nat
deriving DecidableEq, Repr, Inhabited

/-! ## Line Control Unit (chapters 4 and 11) -/

/-- The kinds of the state timer (R64). -/
inductive TimerKind where
  | attach | tension | ease | latch | rewind
deriving DecidableEq, Repr, Inhabited

/-- A running state timer (R59). -/
structure StateTimer where
  kind      : TimerKind
  remaining : Nat
deriving DecidableEq, Repr, Inhabited

/-- The panel levels as a channel was told them (R59, R87). -/
structure PanelView where
  stop      : Bool
  trip      : Bool
  rampClear : Bool
deriving DecidableEq, Repr, Inhabited

/-- One LCU channel (R59), with what an ADOPTING line waits for (R194). `markComing`: a notice of the Sequencer that sets the plan
mark is on its way to the channel (R69, R113). -/
structure LcuChannel where
  state           : LineState
  resume          : Option Resume
  intent          : Option Intent
  lockPosition    : Int
  workingTarget   : Nat
  renderInhibited : Bool
  recoverInhibited : Bool
  timer           : Option StateTimer
  faultCause      : Option FaultCause
  lastStatus      : Option SensedStatus
  planMark        : Bool
  markComing      : Bool
  panel           : PanelView
  softZoneView    : Bool
  freshStatus     : Option SensedStatus
  freshSample     : Bool
deriving DecidableEq, Repr, Inhabited

/-! ## Render Regulator (chapter 5) -/

/-- One Render Regulator channel (R96): `rendering` is the presence of the render record. -/
structure RegulatorChannel where
  stateView : LineState
  rendering : Bool
  speed     : Nat
  allowance : Nat
  half      : Nat
  payoutMax : Nat
deriving DecidableEq, Repr, Inhabited

/-! ## Let-Go Sequencer (chapter 6) -/

/-- The state of the plan record (R110). -/
inductive PlanState where
  | none | running | held | done | aborted
deriving DecidableEq, Repr, Inhabited

/-- The mode of a step (R111). -/
inductive StepMode where
  | ease | trip
deriving DecidableEq, Repr, Inhabited

/-- One step of a plan, its delay clamped, in half-seconds (R111). -/
structure PlanStep where
  lines : LineSet
  delay : Nat
  mode  : StepMode
deriving DecidableEq, Repr, Inhabited

/-- The step phase (R110). -/
inductive StepPhase where
  | delay | issued
deriving DecidableEq, Repr, Inhabited

/-- The hold causes (R110, R120). -/
inductive HoldCause where
  | holdRequest | stop | stepTimeout | lineFailed | lineNotReady
deriving DecidableEq, Repr, Inhabited

/-- The abort causes (R110). -/
inductive AbortCause where
  | request | trip | callClosed
deriving DecidableEq, Repr, Inhabited

/-- The plan record (R110). `steps` is empty when the item is absent. -/
structure PlanRecord where
  state          : PlanState
  owner          : Option Master
  steps          : List PlanStep
  current        : Option Nat
  phase          : Option StepPhase
  delayRemaining : Nat
  delayRunning   : Bool
  stepTimer      : Option Nat
  holdCause      : Option HoldCause
  abortCause     : Option AbortCause
  panelStop      : Bool
  panelRampClear : Bool
deriving DecidableEq, Repr, Inhabited

/-- A command that the Sequencer hands to a line: a step's RELEASE or TRIP (R115), or a RESUME (R122). -/
inductive SeqCommand where
  | release | trip | resume
deriving DecidableEq, Repr, Inhabited

/-- A command handed to the LCU channel of a line (R115, R122). -/
structure Handed where
  line    : Line
  command : SeqCommand
deriving DecidableEq, Repr, Inhabited

/-! ## Berth Supervisor (chapter 7) -/

/-- The phases of a call (R128). -/
inductive CallPhase where
  | idle | arriving | moored | lettingGo | clear
deriving DecidableEq, Repr, Inhabited

/-- The call record (R128). The call time is kept in ms; whole seconds of it are reported. -/
structure CallRecord where
  phase        : CallPhase
  vesselCode   : Option Half
  number       : Nat
  assigned     : LineSet
  timeMs       : Nat
  surgeCount   : Nat
  madeFastTime : Option Nat
deriving DecidableEq, Repr, Inhabited

/-- The Supervisor's view of a line (R129). -/
structure LineView where
  state            : LineState
  latchIntent      : Option LatchIntent
  lastLatch        : Option Latch
  surge            : Bool
  renderInhibited  : Bool
  recoverInhibited : Bool
deriving DecidableEq, Repr, Inhabited

/-- A debounced panel input (R129, R139). -/
structure PanelLevel where
  level : Bool
  timer : Option Nat
deriving DecidableEq, Repr, Inhabited

/-- The First Overload record's fields (R142). -/
structure OverloadCapture where
  line      : Line
  tension   : Int
  netPayout : Int
  time      : Option Nat
deriving DecidableEq, Repr, Inhabited

/-- The First Fault record's fields (R142). -/
structure FaultCapture where
  line  : Line
  cause : FaultCause
  time  : Option Nat
deriving DecidableEq, Repr, Inhabited

/-- The Berth Supervisor (R128, R129, R142). A capture is `none` while its record is not valid. `closeChecked` is the model's
own: the master and the time of the last ATTACH taken while the Depart condition held. A close of the other master that reached
the part together with it may have been checked before it (R133, log entry 50). `closedCall` is the model's own too: the vessel
code of the last bound call that a CLOSE_CALL closed, and the time. An ATTACH of that vessel which reached the part together
with the close may have passed its port's checks before it (R133, log entry 50). -/
structure Supervisor where
  call             : CallRecord
  closeChecked     : Option (Master × Nat)
  closedCall       : Option (Half × Nat)
  view             : Lines LineView
  adoptionComplete : Bool
  rampPermit       : Bool
  departPermit     : Bool
  trip             : PanelLevel
  stop             : PanelLevel
  rampClear        : PanelLevel
  firstOverload    : Option OverloadCapture
  firstFault       : Option FaultCapture
  overloadCount    : Nat
  faultCount       : Nat
deriving DecidableEq, Repr, Inhabited

/-! ## Drive Bus Controller (chapter 8) -/

/-- What a record of the queue asks for (R147): a COMMAND with its payload, or a STATUS. -/
inductive RecordKind where
  | command (payload : Intent)
  | status
deriving DecidableEq, Repr, Inhabited

/-- A record of the queue (R147). -/
structure BusRecord where
  line   : Line
  kind   : RecordKind
  urgent : Bool
deriving DecidableEq, Repr, Inhabited

/-- The phases of a transaction (R150, R151): the repeated start and the read address are a STATUS's. -/
inductive BusPhase where
  | start | address | index | repeatedStart | readAddress | data | stop
deriving DecidableEq, Repr, Inhabited

/-- The transaction in flight (R147): its phase is the one it has reached, and its buffer holds the index, a COMMAND's five
bytes, or the bytes of a STATUS that have arrived. `fresh` is false once the controller has taken a CLEAR_FAULT or a profile write
completion for the line since the start (R152). -/
structure InFlight where
  record  : BusRecord
  address : Nat
  phase   : BusPhase
  buffer  : List Byte
  fresh   : Bool
deriving DecidableEq, Repr, Inhabited

/-- Bus activity (R147). -/
inductive BusActivity where
  | idle | transaction | recovery
deriving DecidableEq, Repr, Inhabited

/-- The last failure phase of a module (R147). -/
inductive FailurePhase where
  | none | absent | indexRefused | dataRefused | busStuck
deriving DecidableEq, Repr, Inhabited

/-- What is kept of a module (R147). -/
structure Module where
  failures  : Nat
  lastPhase : FailurePhase
deriving DecidableEq, Repr, Inhabited

/-- The Drive Bus Controller (R147). -/
structure DriveBus where
  queue      : List BusRecord
  inFlight   : Option InFlight
  activity   : BusActivity
  stuckTimer : Option Nat
  modules    : Lines Module
deriving DecidableEq, Repr, Inhabited

/-! ## Replies and reports (chapter 9) -/

/-- The reply codes (9.6). -/
inductive ReplyCode where
  | ok | badFrame | unknownKind | badLine | lineDisabled | wrongState | notAssigned | notBound | callOpen | callNotClear
  | rampDown | stopped | tripActive | lineInPlan | planBusy | noPlan | notOwner | badPlan | storeBusy | locked
  | profileInUse | badProfile | resetNotAcked | shoreOnly
deriving DecidableEq, Repr, Inhabited

/-- The request kinds (R163), by which a response or reply is headed (R169, R174). -/
inductive RequestKind where
  | unknown (kind : Byte)
  | lineCommand | tripAll | planSubmit | planHold | planResume | planAbort | bind | unbind | closeCall | clearCaptures
  | selectRepeater | readProfile | writeProfile | lockProfile | commissionProfile | verifyStore | readLine | readCall
  | readPlan | readCaptures | readEvents | setMask | ackReset | setReporting | softReset
deriving DecidableEq, Repr, Inhabited

/-- READ_LINE's items for the Shore Port only (R180, R162). -/
structure LineDiagnostics where
  tRaw         : Nat
  f16          : Nat
  missCount    : Nat
  rateClass    : Option RateClass
  peak         : Int
  lockPosition : Int
  errorCount   : Nat
  counters     : Conditions Nat
  surgeCounter : Nat
  active       : Conditions Bool
  lastStatus   : Option SensedStatus
  failures     : Nat
  lastPhase    : FailurePhase
deriving DecidableEq, Repr, Inhabited

/-- READ_LINE's items (R180). -/
structure LineReply where
  state            : LineState
  resume           : Option Resume
  faultCause       : Option FaultCause
  intent           : Option Intent
  tF               : Int
  ref              : Int
  delta            : Int
  position         : Int
  referenced       : Bool
  netPayoutMm      : Int
  speed            : Int
  workingTarget    : Nat
  renderSpeed      : Nat
  renderInhibited  : Bool
  recoverInhibited : Bool
  surge            : Bool
  planMark         : Bool
  diagnostics      : Option LineDiagnostics
deriving DecidableEq, Repr, Inhabited

/-- The reporting modes (R172). -/
inductive ReportMode where
  | stream | event
deriving DecidableEq, Repr, Inhabited

/-- READ_CALL's items for the Shore Port only (R180). -/
structure CallDiagnostics where
  trip             : Bool
  stop             : Bool
  rampClear        : Bool
  adoptionComplete : Bool
  selected         : Option Line
  pendingCount     : Int
  output           : Quad
  abandonedCount   : Nat
  framingErrors    : Nat
  mode             : ReportMode
  interval         : Nat
  reportMask       : KindSet
  shoreAcked       : Bool
  vesselAcked      : Bool
deriving DecidableEq, Repr, Inhabited

/-- READ_CALL's items (R180, R128). -/
structure CallReply where
  phase        : CallPhase
  vesselCode   : Option Half
  number       : Nat
  assigned     : LineSet
  time         : Nat
  surgeCount   : Nat
  madeFastTime : Option Nat
  rampPermit   : Bool
  departPermit : Bool
  diagnostics  : Option CallDiagnostics
deriving DecidableEq, Repr, Inhabited

/-- READ_CAPTURES's items (R180). -/
structure CapturesReply where
  firstOverload : Option OverloadCapture
  firstFault    : Option FaultCapture
  overloadCount : Nat
  faultCount    : Nat
  peaks         : Lines Int
deriving DecidableEq, Repr, Inhabited

/-- READ_PROFILE's items (R191). `berthDefaults` is given for the Berth Profile. -/
structure ProfileReply where
  bytes         : List Byte
  checkGood     : Bool
  sessionLock   : Bool
  commissioned  : Bool
  applyPending  : Bool
  berthDefaults : Option Bool
deriving DecidableEq, Repr, Inhabited

/-- One item for each of the nine records (chapter 10). -/
structure Records (α : Type) where
  lines : Lines α
  berth : α
deriving DecidableEq, Repr, Inhabited

/-- The payloads of replies, as the rules name their items. -/
inductive Payload where
  | empty
  | target (value : Nat)                          -- SET_TARGET: the value used (R108)
  | delays (used : List Nat)                      -- PLAN_SUBMIT: the delays used (R113)
  | step (number : Nat)                           -- BAD_PLAN: the failing step (R112)
  | call (number : Nat) (assigned : LineSet)      -- BIND (R130, R131)
  | interval (used : Nat)                         -- SET_REPORTING (R176)
  | offset (at_ : Nat)                            -- BAD_PROFILE (R187)
  | verified (fails : Records Bool)               -- VERIFY_STORE (R191)
  | line (items : LineReply)
  | callRecord (items : CallReply)
  | plan (record : PlanRecord)                    -- READ_PLAN: the record and the step timer's remaining time
  | captures (items : CapturesReply)
  | events (set : EventSet) (cause : Option ResetCause)
  | profile (items : ProfileReply)
deriving DecidableEq, Repr, Inhabited

/-- An owner's reply: a code and a payload (00_scope 4.4). -/
structure Reply where
  code    : ReplyCode
  payload : Payload
deriving DecidableEq, Repr, Inhabited

/-- A response of the Shore Port: its header and payload (R169, R181). -/
structure Response where
  kind          : Byte
  line          : Byte
  collision     : Bool
  overrun       : Bool
  abandonedSeen : Bool
  reply         : Reply
deriving DecidableEq, Repr, Inhabited

/-- The items of one line in a Status Report (R177). -/
structure LineReport where
  state            : LineState
  tF               : Int
  speed            : Int
  surge            : Bool
  renderInhibited  : Bool
  recoverInhibited : Bool
  faultPresent     : Bool
deriving DecidableEq, Repr, Inhabited

/-- A Status Report's items (R177). -/
structure StatusReport where
  phase        : CallPhase
  boundCode    : Half
  rampPermit   : Bool
  departPermit : Bool
  planState    : PlanState
  planStep     : Nat
  overrunFlag  : Bool
  acked        : Bool
  resetCause   : ResetCause
  kinds        : KindSet
  lines        : Lines LineReport
deriving DecidableEq, Repr, Inhabited

/-- A reply awaiting the Vessel Port's transmitter (R174): `kind` is the request's kind with 80H added. -/
structure VesselReply where
  berthCode  : Half
  vesselCode : Half
  kind       : Byte
  reply      : Reply
deriving DecidableEq, Repr, Inhabited

/-- What a message of the Vessel Port says: a reply, or a Status Report with the berth code and the bound vessel code
(R174, R177). -/
inductive TxContent where
  | reply (message : VesselReply)
  | report (berthCode vesselCode : Half) (items : StatusReport)
deriving DecidableEq, Repr, Inhabited

/-- A message being sent on VP_TX: what it says, and its bytes from the start byte to the check code (R182). -/
structure TxMessage where
  content : TxContent
  bytes   : List Byte
deriving DecidableEq, Repr, Inhabited

/-! ## Ports (chapter 9) -/

/-- The request of a frame being decoded: the kind and the line or record byte of its header, the request they and the payload
stand for, and whether it has the form of its kind (R163, R169, R181). -/
structure ShoreFrame where
  kind    : Byte
  line    : Byte
  request : Request
  formOk  : Bool
deriving DecidableEq, Repr, Inhabited

/-- The Shore Port's response slot (R166). -/
inductive Slot where
  | empty
  | pending (frame : ShoreFrame)
  | ready (response : Response)
deriving DecidableEq, Repr, Inhabited

/-- What a frame says: the response in the slot, or a filler (R167). -/
inductive FrameContent where
  | response (r : Response)
  | notReady
  | noResponse
deriving DecidableEq, Repr, Inhabited

/-- A frame's output: what it says, and the 96 bytes that are shifted out on SP_DO (R167, R181). -/
structure FrameOut where
  content : FrameContent
  bytes   : List Byte
deriving DecidableEq, Repr, Inhabited

/-- The Shore Port (R166). `attnLow` is the output ATTN_S driven low (R171). -/
structure ShorePort where
  slot           : Slot
  frameOut       : Option FrameOut
  byteCount      : Nat
  collision      : Bool
  overrun        : Bool
  abandonedSeen  : Bool
  abandonedCount : Nat
  events         : EventSet
  mask           : KindSet
  acked          : Bool
  attnLow        : Bool
deriving DecidableEq, Repr, Inhabited

/-- The Vessel Port's assembler (R172). -/
inductive Assembler where
  | hunting
  | assembling (bytes : List Byte)
deriving DecidableEq, Repr, Inhabited

/-- A message in the waiting place: its vessel code and kind, the request they stand for, and whether its payload has its
kind's length (R173, R174). -/
structure VesselMessage where
  code    : Half
  kind    : Byte
  request : Request
  formOk  : Bool
deriving DecidableEq, Repr, Inhabited

/-- The transmitter (R172). -/
inductive Transmitter where
  | idle
  | sending (message : TxMessage)
deriving DecidableEq, Repr, Inhabited

/-- The Vessel Port (R172). -/
structure VesselPort where
  assembler     : Assembler
  gapTimer      : Option Nat
  waiting       : Option VesselMessage
  replyPlace    : Option VesselReply
  reportOwed    : Bool
  tx            : Transmitter
  overrunFlag   : Bool
  framingErrors : Nat
  mode          : ReportMode
  interval      : Nat
  mask          : KindSet
  reportTimer   : Option Nat
  events        : EventSet
  acked         : Bool
deriving DecidableEq, Repr, Inhabited

/-! ## Profile Store (chapter 10) -/

/-- A stored record: its 80 bytes, and whether it was left failing its check by a reset during its programming (R188) or by
a read-back mismatch (R189). -/
structure StoredRecord where
  bytes     : List Byte
  leftBad   : Bool
deriving DecidableEq, Repr, Inhabited

/-- The programming operation in flight (R184). A write keeps the 80 bytes it writes. -/
inductive Programming where
  | none
  | write (record : RecordName) (bytes : List Byte)
  | lock (record : RecordName)
deriving DecidableEq, Repr, Inhabited

/-- The Profile Store (R184). -/
structure ProfileStore where
  stored        : Records StoredRecord
  commissioned  : Records Bool
  sessionLock   : Records Bool
  working       : Lines (Option LineProfile)
  workingBerth  : BerthProfile
  berthDefaults : Bool
  programming   : Programming
  applyPending  : Records Bool
deriving DecidableEq, Repr, Inhabited

/-! ## Pins and the whole -/

/-- The levels that stand on one line's encoder inputs (00_scope 3.1). -/
structure EncoderPins where
  a : Bool
  b : Bool
deriving DecidableEq, Repr, Inhabited

/-- The input levels that outlast the events reporting them (00_scope 3.1): encoder pairs, raw panel levels (true: active)
and SP_SEL (true: asserted). -/
structure Pins where
  encoder   : Lines EncoderPins
  trip      : Bool
  stop      : Bool
  rampClear : Bool
  selected  : Bool
deriving DecidableEq, Repr, Inhabited

/-- The state of the part, block by block. `handed` holds the Sequencer's commands on their way to the LCU channels, oldest
first: those that its check has let out and whose line has not taken them (R115, R116). `choices` is the model's own counter,
from which free choices are drawn, and `pending` the queue of commands that wait. -/
structure State where
  lmu        : Lines LmuChannel
  det        : Lines DetectorChannel
  drum       : Lines DrumChannel
  repeater   : Repeater
  lcu        : Lines LcuChannel
  reg        : Lines RegulatorChannel
  plan       : PlanRecord
  handed     : List Handed
  sup        : Supervisor
  bus        : DriveBus
  shore      : ShorePort
  vessel     : VesselPort
  store      : ProfileStore
  pins       : Pins
  resetting  : Option ResetCause
  resetCause : ResetCause
  now        : Nat
  choices    : Nat
  pending    : List Instr
deriving DecidableEq, Repr, Inhabited

/-- The machine never stops with a fault: the part's own faults are line states and events of its State (R93), so this type
has no constructor. -/
inductive Fault where
deriving DecidableEq, Repr

/-- The reasons a command has no meaning in the model. -/
inductive Refusal where
  /-- Raised by an arm of `exec` whose command has no meaning yet; no arm of this model does. Safe: the machine stops. -/
  | notModelled (mnemonic : String)
deriving DecidableEq, Repr

/-! ## Values after reset -/

/-- No kind present. -/
def KindSet.none : KindSet :=
  ⟨false, false, false, false, false, false, false, false, false, false, false, false, false, false, false, false, false,
   false, false⟩

/-- Every kind selected (R166, R172). -/
def KindSet.every : KindSet :=
  ⟨true, true, true, true, true, true, true, true, true, true, true, true, true, true, true, true, true, true, true⟩

/-- The five counters or flags at one value. -/
def Conditions.const {α : Type} (a : α) : Conditions α := ⟨a, a, a, a, a⟩

/-- An LMU channel of a DISABLED line after a reset (R1). -/
def LmuChannel.reset : LmuChannel where
  gate := .idle
  gUsed := 0
  deadline := none
  tickCount := 0
  deferred := false
  sampleTimer := none
  rateClass := none
  f16 := 0
  tRaw := 0
  fAcc := 0
  rAcc := 0
  seeded := false
  missCount := 0
  holdTimer := none
  zeroCapture := none
  workingZero16 := 0
  peak := 0
  stateView := .disabled
  counterView := false
  surgeView := false
  assignedView := false

/-- A Condition Detector channel of a DISABLED line after a reset (R25). -/
def DetectorChannel.reset : DetectorChannel where
  stateView := .disabled
  counters := Conditions.const 0
  active := Conditions.const false
  surgeCounter := 0
  surgeFlag := false
  pendingIndicator := false

/-- A Drum Counter channel of a DISABLED line after a reset, with its decoder state (R42, R45). -/
def DrumChannel.reset (decoder : Quad) : DrumChannel where
  decoder := decoder
  position := 0
  referenced := false
  errorCount := 0
  stepAcc := 0
  windowStart := 0
  speed := 0
  stationaryTimer := none
  stationary := true
  softZone := true
  softZoneSteps := 0
  payoutMaxSteps := 0

/-- An LCU channel of a DISABLED line after a reset (R59). -/
def LcuChannel.reset : LcuChannel where
  state := .disabled
  resume := none
  intent := none
  lockPosition := 0
  workingTarget := 0
  renderInhibited := false
  recoverInhibited := false
  timer := none
  faultCause := none
  lastStatus := none
  planMark := false
  markComing := false
  panel := ⟨false, false, false⟩
  softZoneView := true
  freshStatus := none
  freshSample := false

/-- A Render Regulator channel of a DISABLED line after a reset (R96). -/
def RegulatorChannel.reset : RegulatorChannel where
  stateView := .disabled
  rendering := false
  speed := 0
  allowance := 0
  half := 0
  payoutMax := 0

/-- The plan record after a reset (R110). -/
def PlanRecord.reset : PlanRecord where
  state := .none
  owner := none
  steps := []
  current := none
  phase := none
  delayRemaining := 0
  delayRunning := false
  stepTimer := none
  holdCause := none
  abortCause := none
  panelStop := false
  panelRampClear := false

/-- The call record after a reset (R128). -/
def CallRecord.reset : CallRecord where
  phase := .idle
  vesselCode := none
  number := 0
  assigned := Lines.const false
  timeMs := 0
  surgeCount := 0
  madeFastTime := none

/-- The Supervisor's view of a line in the state given, after a reset (R129). -/
def LineView.reset (state : LineState) : LineView := ⟨state, none, none, false, false, false⟩

/-- A panel input after a reset: inactive, with its stability timer started (R129, R139). -/
def PanelLevel.reset : PanelLevel := ⟨false, some 20⟩

/-- The Supervisor after a reset that leaves every line DISABLED, before adoption complete is judged (R128, R129). -/
def Supervisor.reset : Supervisor where
  call := CallRecord.reset
  closeChecked := none
  closedCall := none
  view := Lines.const (LineView.reset .disabled)
  adoptionComplete := false
  rampPermit := false
  departPermit := false
  trip := PanelLevel.reset
  stop := PanelLevel.reset
  rampClear := PanelLevel.reset
  firstOverload := none
  firstFault := none
  overloadCount := 0
  faultCount := 0

/-- The Drive Bus Controller after a reset: a bus recovery runs (R147, R161). -/
def DriveBus.reset : DriveBus where
  queue := []
  inFlight := none
  activity := .recovery
  stuckTimer := none
  modules := Lines.const ⟨0, .none⟩

/-- A pending set that holds RESET_SEEN alone (R178). -/
def EventSet.resetSeen : EventSet := ⟨Lines.const KindSet.none, { KindSet.none with resetSeen := true }⟩

/-- The Shore Port after a reset (R166, R171). -/
def ShorePort.reset : ShorePort where
  slot := .empty
  frameOut := none
  byteCount := 0
  collision := false
  overrun := false
  abandonedSeen := false
  abandonedCount := 0
  events := EventSet.resetSeen
  mask := KindSet.every
  acked := false
  attnLow := true

/-- The Vessel Port after a reset, with the interval of the working berth profile (R172). -/
def VesselPort.reset (interval : Nat) : VesselPort where
  assembler := .hunting
  gapTimer := none
  waiting := none
  replyPlace := none
  reportOwed := false
  tx := .idle
  overrunFlag := false
  framingErrors := 0
  mode := .stream
  interval := interval
  mask := KindSet.every
  reportTimer := some interval
  events := EventSet.resetSeen
  acked := false

/-- The built-in berth defaults (R185). -/
def BerthProfile.defaults : BerthProfile where
  berthCode := 0
  stepLimit := 120
  reportInterval := 1000
  repeaterUnit := 0
  flankDelay := 10
  discard := false

/-- One item for each record. -/
def Records.const {α : Type} (a : α) : Records α := ⟨Lines.const a, a⟩

/-- A record never programmed. DESIGN CHOICE, unsafe: the spec gives no contents; 80 zero bytes fail their check (log entry 6). -/
def StoredRecord.blank : StoredRecord := ⟨List.replicate 80 0, false⟩

/-- The store of a part whose records were never programmed, after its reset (R184, R185, log entry 6). -/
def ProfileStore.reset : ProfileStore where
  stored := Records.const StoredRecord.blank
  commissioned := Records.const false
  sessionLock := Records.const false
  working := Lines.const none
  workingBerth := BerthProfile.defaults
  berthDefaults := true
  programming := .none
  applyPending := Records.const false

/-- Input pins at the model's start. DESIGN CHOICE, unsafe: every input low or inactive (log entry 19). -/
def Pins.reset : Pins := ⟨Lines.const ⟨false, false⟩, false, false, false, false⟩

/-- The machine right after the completion of a POWER_ON reset with nothing programmed: every record fails its check, so
every line is DISABLED and STORE is pending for each record (R185); adoption is complete at once (R197), so DEPART_PERMIT is
asserted (R137) and PERMIT pending (R138). -/
def State.reset : State where
  lmu := Lines.const LmuChannel.reset
  det := Lines.const DetectorChannel.reset
  drum := Lines.const (DrumChannel.reset .q0)
  repeater := ⟨none, 0, none, 0, .q0, 10⟩
  lcu := Lines.const LcuChannel.reset
  reg := Lines.const RegulatorChannel.reset
  plan := PlanRecord.reset
  handed := []
  sup := { Supervisor.reset with adoptionComplete := true, departPermit := true }
  bus := DriveBus.reset
  shore := { ShorePort.reset with
    events := ⟨Lines.const { KindSet.none with store := true },
               { KindSet.none with resetSeen := true, store := true, permit := true }⟩ }
  vessel := { VesselPort.reset 1000 with
    events := ⟨Lines.const KindSet.none, { KindSet.none with resetSeen := true, permit := true }⟩ }
  store := ProfileStore.reset
  pins := Pins.reset
  resetting := none
  resetCause := .powerOn
  now := 0
  choices := 0
  pending := []

end Sys2Proof.Machine
end

