-- ==== Sys2Proof/Config.lean ====
section
/-! DEFINITION. What the spec leaves open: free values, each a constant without a body, so that nothing can be proved of the
value it takes. -/

namespace Sys2Proof.Config

/-- Which of two blocks takes its notice first, where the spec says either may (log entries 10, 11, 12, 45), whether a line
of the Drive Bus stays low through a millisecond (log entry 20), whether a close was checked before an ATTACH, or an ATTACH
before a close (log entry 50), whether the Sequencer's commands and marks are taken at once or are on their way, and whether it
takes a STOP before or after the refusals of those on their way (log entries 57, 61). -/
opaque choice : Nat → Bool

/-- The number an order of several recipients or lines is drawn with, where the spec says they need no order between them
(log entries 8, 9, 13, 57, 61), and how far a transaction gets within a millisecond (log entry 21). -/
opaque order : Nat → Nat

/-- The byte at an offset of a record whose programming a reset cut short: R188 says only that the record is left failing
its check (log entry 7). -/
opaque tornByte : Nat → Nat → Byte

/-- The request that a Vessel message's kind and payload stand for, and whether the payload has the length of that kind.
The spec names the kinds and gives them no codes and no payload layouts (log entry 5). -/
opaque vesselRequest : Byte → List Byte → Request × Bool

/-- The request that a Shore frame's kind, header byte 1 and payload stand for, and whether byte 1, the coded fields and the
bytes after them are as that kind has them. The spec gives the kinds no codes and no payload layouts (log entries 5, 58). -/
opaque shoreRequest : Byte → Byte → List Byte → Request × Bool

/-- A byte of a STATUS that arrives within a millisecond, by the draw and its place among those that arrive (log entry 21). -/
opaque busByte : Nat → Nat → Byte

/-- The codes of the request kinds in a Shore header; the spec gives none (R181, log entry 5). -/
opaque shoreKind : Machine.RequestKind → Byte

/-- The codes of the request kinds in a Vessel message, whose 80H bit a reply sets (R174, R182, log entry 5). -/
opaque vesselKind : Machine.RequestKind → BitVec 7

/-- The kind of a Status Report (R177, log entry 5). -/
opaque reportKind : Byte

/-- Header byte 1 of a SELECT_REPEATER that names none: the spec does not say how none is coded (R181, log entry 46). -/
opaque noLine : Byte

/-- The codes of the reply codes of 9.6 (log entry 5). -/
opaque replyCode : Machine.ReplyCode → Byte

/-- The filler codes NOT_READY and NO_RESPONSE (R167, log entry 5). -/
opaque notReady : Byte

@[inherit_doc notReady]
opaque noResponse : Byte

/-- The fields of a reply's payload in a Shore response, and after the reply code in a Vessel reply (R169, R174, log entry 5). -/
opaque payloadBytes : Machine.Payload → List Byte

/-- The fields of a Status Report (R177, log entry 5). -/
opaque reportBytes : Machine.StatusReport → List Byte

/-- A quotient whose divisor is 0. No profile that passes R187 gives one; the spec states no result (log entry 35). -/
opaque quotientByZero : Nat → Nat

end Sys2Proof.Config
end

