-- ==== Sys2Proof/Machine/Ops.lean ====
section
/-! DEFINITION. Shared operations: updates of one channel, the arithmetic the rules name, free orders, check codes, raising
events, and the placing of records in the drive queue. -/

namespace Sys2Proof

/-- Whether a kind is selected or present. -/
def KindSet.has (x : KindSet) : EventKind → Bool
  | .resetSeen => x.resetSeen | .lineState => x.lineState | .render => x.render | .allowance => x.allowance
  | .surge => x.surge | .fault => x.fault | .easeFailed => x.easeFailed | .attachExpired => x.attachExpired
  | .snag => x.snag | .payoutEnd => x.payoutEnd | .refReseed => x.refReseed | .zeroDone => x.zeroDone
  | .zeroError => x.zeroError | .trip => x.trip | .plan => x.plan | .call => x.call | .permit => x.permit
  | .stop => x.stop | .store => x.store

/-- A kind made present. -/
def KindSet.add (x : KindSet) : EventKind → KindSet
  | .resetSeen => { x with resetSeen := true } | .lineState => { x with lineState := true }
  | .render => { x with render := true } | .allowance => { x with allowance := true }
  | .surge => { x with surge := true } | .fault => { x with fault := true }
  | .easeFailed => { x with easeFailed := true } | .attachExpired => { x with attachExpired := true }
  | .snag => { x with snag := true } | .payoutEnd => { x with payoutEnd := true }
  | .refReseed => { x with refReseed := true } | .zeroDone => { x with zeroDone := true }
  | .zeroError => { x with zeroError := true } | .trip => { x with trip := true }
  | .plan => { x with plan := true } | .call => { x with call := true }
  | .permit => { x with permit := true } | .stop => { x with stop := true } | .store => { x with store := true }

/-- Every event kind. -/
def EventKind.all : List EventKind :=
  [.resetSeen, .lineState, .render, .allowance, .surge, .fault, .easeFailed, .attachExpired, .snag, .payoutEnd,
   .refReseed, .zeroDone, .zeroError, .trip, .plan, .call, .permit, .stop, .store]

/-- A kind is present that the mask selects. -/
def KindSet.meets (x mask : KindSet) : Bool := EventKind.all.any fun k => x.has k && mask.has k

/-- The kinds present in either set. -/
def KindSet.union (x y : KindSet) : KindSet :=
  EventKind.all.foldl (fun z k => if y.has k then z.add k else z) x

namespace Machine

/-! ## Updates of one channel -/

def State.setLmu (s : State) (l : Line) (c : LmuChannel) : State := { s with lmu := s.lmu.set l c }
def State.setDet (s : State) (l : Line) (c : DetectorChannel) : State := { s with det := s.det.set l c }
def State.setDrum (s : State) (l : Line) (c : DrumChannel) : State := { s with drum := s.drum.set l c }
def State.setLcu (s : State) (l : Line) (c : LcuChannel) : State := { s with lcu := s.lcu.set l c }
def State.setReg (s : State) (l : Line) (c : RegulatorChannel) : State := { s with reg := s.reg.set l c }
def State.setRepeater (s : State) (r : Repeater) : State := { s with repeater := r }
def State.setPlan (s : State) (p : PlanRecord) : State := { s with plan := p }
def State.setSup (s : State) (u : Supervisor) : State := { s with sup := u }
def State.setBus (s : State) (b : DriveBus) : State := { s with bus := b }
def State.setShore (s : State) (p : ShorePort) : State := { s with shore := p }
def State.setVessel (s : State) (p : VesselPort) : State := { s with vessel := p }
def State.setStore (s : State) (p : ProfileStore) : State := { s with store := p }
def State.setPins (s : State) (p : Pins) : State := { s with pins := p }

/-- The working copy of a line's profile; a line without one has no fields, and no block uses any (R185). -/
def State.profile (s : State) (l : Line) : LineProfile := (s.store.working.get l).getD default

/-- The line's state. -/
def State.stateOf (s : State) (l : Line) : LineState := (s.lcu.get l).state

/-- The next free choice has been drawn. -/
def State.drawn (s : State) : State := { s with choices := s.choices + 1 }

/-! ## Records of the store -/

namespace Records

variable {α : Type}

def get (x : Records α) : RecordName → α
  | .line l => x.lines.get l
  | .berth => x.berth

def set (x : Records α) (r : RecordName) (a : α) : Records α :=
  match r with
  | .line l => { x with lines := x.lines.set l a }
  | .berth => { x with berth := a }

end Records

namespace Conditions

variable {α : Type}

def get (x : Conditions α) : Condition → α
  | .render => x.render | .slack => x.slack | .target => x.target | .release => x.release | .snag => x.snag

def ofFn (f : Condition → α) : Conditions α := ⟨f .render, f .slack, f .target, f .release, f .snag⟩

end Conditions

/-- The tag of a record's STORE event (R178). -/
def RecordName.tag : RecordName → Tag
  | .line l => .line l
  | .berth => .berth

/-! ## Arithmetic (00_scope 4.1) -/

/-- The floor of a quotient; a divisor of 0 gives a free value (log entry 35). -/
def floorDiv (n d : Nat) : Nat := if d = 0 then Config.quotientByZero n else n / d

/-- The least whole number not below a quotient. -/
def ceilDiv (n d : Nat) : Nat := if d = 0 then Config.quotientByZero n else (n + d - 1) / d

/-- A value clamped to a range (00_scope 4.4). -/
def clampNat (lo hi x : Nat) : Nat := max lo (min hi x)

/-- A value clamped to a range. -/
def clampInt (lo hi x : Int) : Int := max lo (min hi x)

/-- One more, stopping at the maximum (00_scope 4.4). -/
def satInc (top n : Nat) : Nat := min top (n + 1)

/-- The value of an accumulator with 8 fraction bits (00_scope 4.1). -/
def accValue (acc : Int) : Int := acc / 256

/-- An accumulator moved toward a value: the difference, shifted right arithmetically, is added (R11, R14). -/
def approach (acc value : Int) (shift : Nat) : Int := acc + (value * 256 - acc) / 2 ^ shift

/-- `exit(X, H)` of R29. -/
def exitThreshold (x h : Nat) : Nat := x * (256 - h) / 256

/-! ## Free orders -/

/-- A list in the order a number draws: every order of the list is drawn by some number. -/
def permute {α : Type} : Nat → List α → List α
  | _, [] => []
  | _, [x] => [x]
  | seed, x :: y :: xs =>
    let rest := permute (seed / (xs.length + 2)) (y :: xs)
    rest.insertIdx (seed % (xs.length + 2)) x

/-- Several lines, or several notices, taken one after another in a free order (log entries 8, 9). -/
def inFreeOrder {α : Type} (f : State → α → State) (items : List α) (s : State) : State :=
  (permute (Config.order s.choices) items).foldl f s.drawn

/-- The members of a line set. -/
def linesOf (x : LineSet) : List Line := Line.all.filter x.get

/-! ## Check codes (R182, R186) -/

/-- One bit of the CRC-16 with polynomial 1021H, most significant bit first. -/
def crcShift (crc : BitVec 16) : BitVec 16 :=
  if crc.msb then (crc <<< 1) ^^^ 0x1021#16 else crc <<< 1

/-- One byte taken into the CRC-16. -/
def crcByte (crc : BitVec 16) (b : Byte) : BitVec 16 :=
  let x := crc ^^^ (b.setWidth 16 <<< 8)
  crcShift (crcShift (crcShift (crcShift (crcShift (crcShift (crcShift (crcShift x)))))))

/-- The CRC-16 of some bytes: initial value FFFFH, no final inversion. -/
def crc16 (bytes : List Byte) : BitVec 16 := bytes.foldl crcByte 0xFFFF#16

/-- A 16-bit field's two bytes, most significant first. -/
def bytesOf (x : BitVec 16) : List Byte := [(x >>> 8).setWidth 8, x.setWidth 8]

/-- The number at an offset of some bytes, `size` bytes long, most significant first. -/
def field (bytes : List Byte) (offset size : Nat) : Nat :=
  ((bytes.drop offset).take size).foldl (fun n b => n * 256 + b.toNat) 0

/-! ## Events (R171, R176, R178) -/

def EventSet.get (x : EventSet) : Tag → KindSet
  | .line l => x.lines.get l
  | .berth => x.berth

def EventSet.add (x : EventSet) (k : EventKind) : Tag → EventSet
  | .line l => { x with lines := x.lines.set l ((x.lines.get l).add k) }
  | .berth => { x with berth := x.berth.add k }

/-- The set holds a pair of a kind the mask selects. -/
def EventSet.meets (x : EventSet) (mask : KindSet) : Bool :=
  x.berth.meets mask || x.lines.anyB fun _ k => k.meets mask

/-- Every pair removed except RESET_SEEN (R177, R179). -/
def EventSet.cleared (x : EventSet) : EventSet :=
  ⟨Lines.const KindSet.none, { KindSet.none with resetSeen := x.berth.resetSeen }⟩

/-- RESET_SEEN removed (R165). -/
def EventSet.acknowledged (x : EventSet) : EventSet := { x with berth := { x.berth with resetSeen := false } }

/-- ATTN_S driven low or high by the pending set and the mask (R171). -/
def ShorePort.withAttn (p : ShorePort) : ShorePort :=
  { p with attnLow := p.events.berth.resetSeen || p.events.meets p.mask }

/-- The vessel receives every kind but ZERO_ERROR and STORE (R178). -/
def vesselReceives : EventKind → Bool
  | .zeroError => false
  | .store => false
  | _ => true

/-- The vessel's pending set with a pair added; in EVENT mode a report falls owed when the set comes to hold a pair of a
selected kind, having held none (R176, R178). -/
def VesselPort.withEvent (p : VesselPort) (k : EventKind) (t : Tag) : VesselPort :=
  if vesselReceives k then
    let e := p.events.add k t
    { p with
      events := e
      reportOwed := p.reportOwed || (p.mode == .event && !p.events.meets p.mask && e.meets p.mask) }
  else p

/-- A block raises an event: each port adds the pair to its pending set (R178). -/
def raise (k : EventKind) (t : Tag) (s : State) : State :=
  (s.setShore { s.shore with events := s.shore.events.add k t }.withAttn).setVessel (s.vessel.withEvent k t)

/-! ## The drive queue (R153 to R155) -/

/-- A record that carries a COMMAND for the line. -/
def BusRecord.isCommand (l : Line) (r : BusRecord) : Bool :=
  r.line == l && match r.kind with | .command _ => true | .status => false

/-- A record that carries a STATUS for the line. -/
def BusRecord.isStatus (l : Line) (r : BusRecord) : Bool :=
  r.line == l && match r.kind with | .command _ => false | .status => true

/-- A record put behind the last URGENT record, ahead of every NORMAL one (R153, R154). -/
def behindUrgent (r : BusRecord) (q : List BusRecord) : List BusRecord :=
  q.takeWhile (·.urgent) ++ r :: q.dropWhile (·.urgent)

/-- The queue with a COMMAND placed by R154. -/
def placeCommand (l : Line) (payload : Intent) (urgent : Bool) (q : List BusRecord) : List BusRecord :=
  match q.find? (·.isCommand l) with
  | none =>
    if urgent then behindUrgent ⟨l, .command payload, true⟩ q else q ++ [⟨l, .command payload, false⟩]
  | some old =>
    if urgent && !old.urgent then
      behindUrgent ⟨l, .command payload, true⟩ (q.filter fun r => !r.isCommand l)
    else
      q.map fun r => if r.isCommand l then { r with kind := .command payload } else r

/-- The queue with a STATUS poll placed by R155. -/
def placeStatus (l : Line) (q : List BusRecord) : List BusRecord :=
  if q.any (·.isStatus l) then q else q ++ [⟨l, .status, false⟩]

/-- The LCU hands a COMMAND on (R62, R154). -/
def queueCommand (l : Line) (payload : Intent) (urgent : Bool) (s : State) : State :=
  s.setBus { s.bus with queue := placeCommand l payload urgent s.bus.queue }

/-- A sample queues a STATUS poll (R17, R155). -/
def queueStatus (l : Line) (s : State) : State :=
  s.setBus { s.bus with queue := placeStatus l s.bus.queue }

/-! ## Drive intents (R61, R62) -/

/-- Brake, drive, speed and latch are the same (R62). -/
def Intent.same (a b : Intent) : Bool :=
  a.brake == b.brake && a.drive == b.drive && a.speed == b.speed && a.latch == b.latch

/-- The latch intent of a FAULT line (R61). -/
def faultLatch : Option SensedStatus → LatchIntent
  | none => .hold
  | some st => match st.latch with | .closed => .hold | .opened => .rest | .moving => .rest

/-- The latch intent of a HALTED line (R61). -/
def haltedLatch : Option Resume → LatchIntent
  | some .tensioning => .hold
  | some .easing => .hold
  | some .attaching => .rest
  | some .rewinding => .rest
  | none => .rest

/-- The drive intent that each line state gives (R61): from the working profile, the render speed V and the LCU's record. -/
def intentOf (p : LineProfile) (v : Nat) (c : LcuChannel) : Option Intent :=
  match c.state with
  | .disabled => none
  | .adopting => none
  | .stowed => some ⟨.apply, .stop, 0, .rest, false⟩
  | .attaching => some ⟨.drag, .stop, 0, .arm, false⟩
  | .tensioning => some ⟨.release, .haul, p.haulSpeed, .hold, false⟩
  | .holding => some ⟨.apply, .stop, 0, .hold, false⟩
  | .rendering => some ⟨.modulate, .stop, v, .hold, false⟩
  | .recovering => some ⟨.release, .haul, p.recoverSpeed, .hold, false⟩
  | .easing => some ⟨.modulate, .stop, p.easeSpeed, .hold, false⟩
  | .unlatching => some ⟨.apply, .stop, 0, .release, false⟩
  | .slackOut => some ⟨.apply, .stop, 0, .rest, false⟩
  | .rewinding => some ⟨.release, .haul, if c.softZoneView then p.softSpeed else p.rewindSpeed, .rest, false⟩
  | .tripped => some ⟨.apply, .stop, 0, .release, true⟩
  | .halted => some ⟨.apply, .stop, 0, haltedLatch c.resume, false⟩
  | .fault => some ⟨.apply, .stop, 0, faultLatch c.lastStatus, false⟩

/-- The line's intent is set anew from its state; a change of it, or an entry to TRIPPED, queues a COMMAND (R62, R63, R90).
An intent of none queues nothing. -/
def refreshIntent (l : Line) (entryToTripped : Bool) (s : State) : State :=
  let c := s.lcu.get l
  let new := intentOf (s.profile l) (s.reg.get l).speed c
  let t := s.setLcu l { c with intent := new }
  match new with
  | none => t
  | some i =>
    let unchanged := match c.intent with | none => false | some j => j.same i
    if unchanged && !entryToTripped then t else queueCommand l i entryToTripped t

end Machine

end Sys2Proof
end

