-- ==== Sys2Proof/Machine/Operands.lean ====
section
/-! DEFINITION. How operands are read: line and record numbers, the fields of profile records and their validation, status
bytes, command bytes and the framing of Vessel messages. -/

namespace Sys2Proof.Machine

/-! ## Numbers of lines and records -/

/-- Line numbers 0 to 7 (R163). -/
def lineOfByte (b : Byte) : Option Line := Line.all[b.toNat]?

/-- Record numbers 0 to 8 (R184). -/
def recordOfByte (b : Byte) : Option RecordName :=
  if b.toNat = 8 then some .berth else (lineOfByte b).map .line

/-! ## Stored records (R186) -/

/-- The check of a stored record: its CRC-16, and not left failing it (R185, R188, R189). -/
def StoredRecord.checkGood (r : StoredRecord) : Bool :=
  !r.leftBad && bytesOf (crc16 (r.bytes.take 78)) == (r.bytes.drop 78).take 2

/-- A record's 80 bytes: bytes 0 to 77 and the computed check code (R186, R188). -/
def withCheckCode (bytes : List Byte) : List Byte := bytes ++ bytesOf (crc16 bytes)

/-- The fields of a Line Profile (R186). -/
def lineProfileOf (b : List Byte) : LineProfile :=
  let options := field b 0 1
  { enabled := options.testBit 0, autoZero := options.testBit 1, autoRewind := options.testBit 2
    driveAddress := field b 1 1, gateCode := field b 2 1
    betaF := field b 3 1 % 16, betaR := field b 3 1 / 16
    zero16 := field b 4 4, span := field b 8 2, zeroBand := field b 10 2
    targetMin := field b 12 2, targetDefault := field b 14 2, targetMax := field b 16 2
    renderLimit := field b 18 2, renderHyst := field b 20 1, slackRatio := field b 21 1
    surgeThreshold := field b 22 2, surgeHyst := field b 24 1
    debounceIn := field b 25 1 % 16, debounceOut := field b 25 1 / 16
    haltThreshold := field b 26 2, haltLimit := field b 28 2
    releaseTension := field b 30 2, snagLimit := field b 32 2
    kr := field b 34 1, i := field b 35 1, f := field b 36 2, d := field b 38 2
    vMax := field b 40 2, vStop := field b 42 2
    allowance := field b 44 2, stepUm := field b 46 2, payoutMax := field b 48 2, softZone := field b 50 2
    haulSpeed := field b 52 2, recoverSpeed := field b 54 2, easeSpeed := field b 56 2
    rewindSpeed := field b 58 2, softSpeed := field b 60 2
    attachLimit := field b 62 2, tensionLimit := field b 64 1, easeLimit := field b 65 1
    latchLimit := field b 66 1, rewindLimit := field b 67 2 }

/-- The fields of the Berth Profile (R186). -/
def berthProfileOf (b : List Byte) : BerthProfile :=
  { berthCode := BitVec.ofNat 16 (field b 0 2), stepLimit := field b 2 2, reportInterval := field b 4 2
    repeaterUnit := field b 6 1, flankDelay := field b 7 1, discard := field b 8 1 != 0 }

/-- The first offset from `at_` on, before `stop`, whose byte is not zero (R187). -/
def firstNonZero (b : List Byte) (at_ stop : Nat) : Option Nat :=
  ((List.range stop).filter fun k => at_ ≤ k && field b k 1 != 0).head?

/-- The address is the drive address of another stored Line Profile whose check is good and enabled option set, or of the
working copy of another line that is not DISABLED (R187, offset 1). -/
def addressTaken (s : State) (l : Line) (address : Nat) : Bool :=
  Line.all.any fun m =>
    m != l &&
      (let r := s.store.stored.lines.get m
       let stored := lineProfileOf r.bytes
       (r.checkGood && stored.enabled && stored.driveAddress == address)
       || (s.stateOf m != .disabled && (s.profile m).driveAddress == address
            && (s.store.working.get m).isSome))

/-- The lowest offset among the fields of a Line Profile that fail, or none (R187). -/
def lineProfileFailure (s : State) (l : Line) (b : List Byte) : Option Nat :=
  let p := lineProfileOf b
  let tests : List (Nat × Bool) :=
    [ (0, field b 0 1 > 7),
      (1, p.enabled && (p.driveAddress < 0x20 || p.driveAddress > 0x5F || addressTaken s l p.driveAddress)),
      (2, p.gateCode > 6),
      (3, p.betaF > 7 || p.betaR < 4 || p.betaR > 12),
      (14, p.targetDefault < p.targetMin),
      (16, p.targetMax < p.targetDefault),
      (18, p.renderLimit ≤ p.targetMax || p.renderLimit > 20000),
      (21, p.slackRatio == 0),
      (26, p.haltThreshold ≥ p.surgeThreshold),
      (28, p.haltLimit < 10 || p.haltLimit > 3600),
      (30, p.releaseTension ≥ p.targetMin),
      (34, p.kr == 0),
      (35, p.i == 0),
      (40, p.vMax < 50 || p.vMax > 3000),
      (42, p.vStop < 10 || p.vStop ≥ p.vMax),
      (46, p.stepUm < 50 || p.stepUm > 5000) ]
  match (tests.filter (·.2)).head? with
  | some t => some t.1
  | none => firstNonZero b 69 78

/-- The lowest offset among the fields of a Berth Profile that fail, or none (R187). -/
def berthProfileFailure (b : List Byte) : Option Nat :=
  if field b 2 2 < 10 || field b 2 2 > 600 then some 2
  else if field b 8 1 > 1 then some 8
  else firstNonZero b 9 78

/-- Validation of a record's 78 bytes (R187). -/
def profileFailure (s : State) (r : RecordName) (b : List Byte) : Option Nat :=
  match r with
  | .line l => lineProfileFailure s l b
  | .berth => berthProfileFailure b

/-! ## Drive Bus blocks (R152, R183) -/

/-- A status block decoded: a latch byte that is no code is taken as MOVING, any stow byte but 0 as 1 (R152). -/
def decodeStatus (b : StatusBytes) : SensedStatus where
  brake := b.brake
  latch := if b.latch = 0#8 then .opened else if b.latch = 1#8 then .closed else .moving
  stow := b.stow != 0#8
  drive := b.drive
  faultCode := b.faultCode
  sequence := b.sequence
  old := false

/-- The codes of the brake intents (R183). -/
def Brake.code : Brake → Byte
  | .apply => 0 | .release => 1 | .drag => 2 | .modulate => 3

/-- The codes of the drive intents (R183). -/
def Drive.code : Drive → Byte
  | .stop => 0 | .haul => 1

/-- The codes of the latch intents (R183). -/
def LatchIntent.code : LatchIntent → Byte
  | .rest => 0 | .arm => 1 | .hold => 2 | .release => 3

/-- The six bytes of a STATUS's buffer, behind the index (R147, R151). -/
def statusBytesOf (buffer : List Byte) : StatusBytes :=
  ⟨buffer.getD 1 0, buffer.getD 2 0, buffer.getD 3 0, buffer.getD 4 0, buffer.getD 5 0, buffer.getD 6 0⟩

/-- The data buffer of a transaction at its start: the index, and a COMMAND's five bytes (R147, R183). -/
def busBuffer : RecordKind → List Byte
  | .command i => [0x00#8, i.brake.code, i.drive.code] ++ bytesOf (BitVec.ofNat 16 i.speed) ++ [i.latch.code]
  | .status => [0x10#8]

/-! ## Vessel messages (R173, R182) -/

/-- The message bytes so far are complete: length plus four bytes have been received (R173). -/
def messageComplete (bytes : List Byte) : Bool := 2 ≤ bytes.length && bytes.length == field bytes 1 1 + 4

/-- The check code over offsets 1 to L + 1 equals the one at L + 2 (R182). -/
def messageCheckGood (bytes : List Byte) : Bool :=
  let n := field bytes 1 1 + 1
  bytesOf (crc16 ((bytes.drop 1).take n)) == (bytes.drop (n + 1)).take 2

/-- The berth code of a message (R182). -/
def messageBerth (bytes : List Byte) : Half := BitVec.ofNat 16 (field bytes 2 2)

/-- The request of a Vessel message's kind and payload, and whether the payload has the kind's length. A kind that has 80H set
is no request kind (R174); the codes of the others are not in the spec (log entry 5). -/
def vesselBody (kind : Byte) (payload : List Byte) : Request × Bool :=
  if kind.toNat ≥ 0x80 then (.unknown kind 0#8, true)
  else
    match Config.vesselRequest kind payload with
    | (.unknown _ _, formOk) => (.unknown kind 0#8, formOk)
    | body => body

/-- A message as decoding reads it: its vessel code, its kind, and the request they stand for (R174, R182). -/
def messageOf (bytes : List Byte) : VesselMessage :=
  let kind := BitVec.ofNat 8 (field bytes 6 1)
  let body := vesselBody kind ((bytes.drop 7).take (field bytes 1 1 - 5))
  ⟨BitVec.ofNat 16 (field bytes 4 2), kind, body.1, body.2⟩

/-- A message's bytes as the port lays them out: start byte, length, codes, kind, payload and check code (R182). -/
def messageBytes (berth vessel : Half) (kind : Byte) (payload : List Byte) : List Byte :=
  let body := BitVec.ofNat 8 (payload.length + 5) :: bytesOf berth ++ bytesOf vessel ++ kind :: payload
  0xA5#8 :: body ++ bytesOf (crc16 body)

/-! ## Requests -/

/-- The kind that heads a reply (R169, R174). -/
def requestKind : Request → RequestKind
  | .unknown k _ => .unknown k
  | .unknownCommand _ _ => .lineCommand
  | .lineCommand _ _ => .lineCommand
  | .tripAll => .tripAll
  | .planSubmit _ => .planSubmit
  | .planHold => .planHold
  | .planResume => .planResume
  | .planAbort => .planAbort
  | .bind _ => .bind
  | .unbind => .unbind
  | .closeCall => .closeCall
  | .clearCaptures => .clearCaptures
  | .selectRepeater _ => .selectRepeater
  | .readProfile _ => .readProfile
  | .writeProfile _ _ => .writeProfile
  | .lockProfile _ => .lockProfile
  | .commissionProfile _ => .commissionProfile
  | .verifyStore => .verifyStore
  | .readLine _ => .readLine
  | .readCall => .readCall
  | .readPlan => .readPlan
  | .readCaptures => .readCaptures
  | .readEvents => .readEvents
  | .setMask _ => .setMask
  | .ackReset => .ackReset
  | .setReporting _ _ _ => .setReporting
  | .softReset => .softReset

/-- The line or record byte of a request's header, 00H where the kind names none (R181). How a SELECT_REPEATER codes none is a
free value (log entry 46). -/
def requestLine : Request → Byte
  | .unknown _ l => l
  | .unknownCommand l _ => l
  | .lineCommand l _ => l
  | .selectRepeater (some l) => l
  | .selectRepeater none => Config.noLine
  | .readProfile r => r
  | .writeProfile r _ => r
  | .lockProfile r => r
  | .commissionProfile r => r
  | .readLine l => l
  | _ => 0#8

/-- The line byte that a request names, for checks 4 and 5 of R163: profile requests and a SELECT_REPEATER of none name none. -/
def namedLine : Request → Option Byte
  | .lineCommand l _ => some l
  | .selectRepeater sel => sel
  | .readLine l => some l
  | _ => none

/-! ## Replies, reports and frames as bytes (R174, R177, R181, R182) -/

/-- The kind of a request in a Vessel message (R182, log entry 5). -/
def vesselKind (r : Request) : Byte :=
  match requestKind r with
  | .unknown k => k
  | k => (Config.vesselKind k).setWidth 8

/-- The kind of a reply to a Vessel message: the request's with 80H added, which leaves a kind that has 80H set as it is
(R174, log entry 47). -/
def replyKind (kind : Byte) : Byte := kind ||| 0x80#8

/-- A message's bytes by what it says: a reply's first payload byte is its reply code, and a payload has at most 55 bytes
(R174, R177, R182). -/
def TxContent.layout : TxContent → List Byte
  | .reply m =>
    messageBytes m.berthCode m.vesselCode m.kind (Config.replyCode m.reply.code :: (Config.payloadBytes m.reply.payload).take 54)
  | .report berth vessel items => messageBytes berth vessel Config.reportKind ((Config.reportBytes items).take 55)

/-- The message that carries a reply, as the transmitter sends it (R174, R182). -/
def TxMessage.reply (m : VesselReply) : TxMessage := ⟨.reply m, (TxContent.reply m).layout⟩

/-- The message that carries a Status Report, as the transmitter sends it (R177, R182). -/
def TxMessage.report (berth vessel : Half) (items : StatusReport) : TxMessage :=
  ⟨.report berth vessel items, (TxContent.report berth vessel items).layout⟩

/-- The kind of a request in a Shore header (R181, log entry 5). -/
def shoreKind : RequestKind → Byte
  | .unknown k => k
  | k => Config.shoreKind k

/-- The request with the line or record that byte 1 of its header names, an unknown kind with its own kind, and a WRITE_PROFILE with
the first 78 bytes of its payload (R181, R186). -/
def requestInFrame (kind line : Byte) (payload : List Byte) : Request → Request
  | .unknown _ _ => .unknown kind line
  | .unknownCommand _ c => .unknownCommand line c
  | .lineCommand _ c => .lineCommand line c
  | .selectRepeater (some _) => .selectRepeater (some line)
  | .readProfile _ => .readProfile line
  | .writeProfile _ _ => .writeProfile line (payload.take 78)
  | .lockProfile _ => .lockProfile line
  | .commissionProfile _ => .commissionProfile line
  | .readLine _ => .readLine line
  | r => r

/-- The request of a complete frame, read from its header and payload (R181). Bytes 2 and 3 are reserved (R163); what the rest of
the form asks is free (log entry 58). -/
def frameOf (bytes : List Byte) : ShoreFrame :=
  let kind := bytes.getD 0 0#8
  let line := bytes.getD 1 0#8
  let payload := bytes.drop 4
  let body := Config.shoreRequest kind line payload
  ⟨kind, line, requestInFrame kind line payload body.1, bytes.getD 2 0#8 == 0#8 && bytes.getD 3 0#8 == 0#8 && body.2⟩

/-- The frame that a request stands for where it comes as one command (R181, log entries 3, 46). -/
def ShoreFrame.of (r : Request) : ShoreFrame := ⟨shoreKind (requestKind r), requestLine r, r, true⟩

/-- The flags byte of a response: bit 0 COLLISION, bit 1 OVERRUN, bit 2 ABANDONED_SEEN, other bits 0 (R181). -/
def Response.flags (r : Response) : Byte :=
  BitVec.ofNat 8 ((if r.collision then 1 else 0) + (if r.overrun then 2 else 0) + (if r.abandonedSeen then 4 else 0))

/-- A frame of 96 bytes: its header, then the fields of its payload with zero bytes after them (R181). -/
def frameBytes (kind line flags code : Byte) (payload : List Byte) : List Byte :=
  [kind, line, flags, code] ++ (payload ++ List.replicate 92 0#8).take 92

/-- A frame's bytes by what it says; a filler has kind, line and flags 00H and no payload (R167, R181). -/
def FrameContent.layout : FrameContent → List Byte
  | .response r => frameBytes r.kind r.line r.flags (Config.replyCode r.reply.code) (Config.payloadBytes r.reply.payload)
  | .notReady => frameBytes 0#8 0#8 0#8 Config.notReady []
  | .noResponse => frameBytes 0#8 0#8 0#8 Config.noResponse []

/-- The output of a frame that carries a response out (R167, R181). -/
def FrameOut.response (r : Response) : FrameOut := ⟨.response r, (FrameContent.response r).layout⟩

/-- The output of a frame begun while a request is being decoded (R167, R181). -/
def FrameOut.notReady : FrameOut := ⟨.notReady, FrameContent.notReady.layout⟩

/-- The output of a frame begun while the slot is EMPTY (R167, R181). -/
def FrameOut.noResponse : FrameOut := ⟨.noResponse, FrameContent.noResponse.layout⟩

end Sys2Proof.Machine
end

