-- ==== Sys2Proof/Machine/Flags.lean ====
section
/-! DEFINITION. Flags and verdicts computed from State: the latched family, rate classes, condition tests and their counters,
net payout, Made Fast, the Depart condition and the two permits. -/

namespace Sys2Proof.Machine

/-- The latched family: HOLDING, RENDERING, RECOVERING (00_scope 4.3). -/
def latched : LineState → Bool
  | .holding => true
  | .rendering => true
  | .recovering => true
  | _ => false

/-- A line of a step is clear in SLACK_OUT, REWINDING or STOWED (R118). -/
def isClear : LineState → Bool
  | .slackOut => true
  | .rewinding => true
  | .stowed => true
  | _ => false

/-! ## Rate classes (R2, R5, R7) -/

/-- The rate class of a channel (R7). -/
def rateClassOf (st : LineState) (counters surge : Bool) : Option RateClass :=
  match st with
  | .disabled => none
  | .stowed => some .quiet
  | .slackOut => some .quiet
  | .fault => some .quiet
  | .halted => some .watch
  | .holding => if counters || surge then some .active else some .watch
  | .adopting => some .active
  | .attaching => some .active
  | .tensioning => some .active
  | .rendering => some .active
  | .recovering => some .active
  | .easing => some .active
  | .unlatching => some .active
  | .rewinding => some .active
  | .tripped => some .active

/-- The sample period of a class, ms (R5). -/
def classPeriod : RateClass → Nat
  | .quiet => 200
  | .watch => 50
  | .active => 10

/-- The periods a gate counts: the long gate, or in ACTIVE one eighth of it but at least two (R2). -/
def gateLength (cls : RateClass) (gateCode : Nat) : Nat :=
  match cls with
  | .active => max 2 (2 ^ (gateCode + 1) / 8)
  | .quiet => 2 ^ (gateCode + 1)
  | .watch => 2 ^ (gateCode + 1)

/-! ## Tension arithmetic (R9, R10) -/

/-- The load-pin frequency from a gate's ticks (R9). -/
def frequencyOf (gUsed ticks : Nat) : Nat := 128000000 * gUsed / ticks

/-- The raw tension from a frequency, the working zero and the span (R10). -/
def rawTension (f16 zero16 span : Nat) : Nat :=
  if f16 ≤ zero16 then 0 else min 20000 ((f16 - zero16) * span / 4096)

/-! ## Load conditions (R26, R28, R30, R32, R36, R37) -/

/-- The conditions watched in each state, surge apart (R26). -/
def watched (st : LineState) : Conditions Bool :=
  match st with
  | .holding => ⟨true, true, false, false, false⟩
  | .recovering => ⟨false, false, true, false, false⟩
  | .tensioning => ⟨false, false, true, false, false⟩
  | .easing => ⟨false, false, false, true, false⟩
  | .rewinding => ⟨false, false, false, false, true⟩
  | _ => Conditions.const false

/-- The tests of the five conditions on a sample's T_f (R28). -/
def conditionTests (p : LineProfile) (target : Nat) (tF : Int) : Conditions Bool :=
  { render := decide ((p.renderLimit : Int) ≤ tF)
    slack := decide (tF ≤ (target * p.slackRatio / 256 : Nat))
    target := decide ((target : Int) ≤ tF)
    release := decide (tF ≤ (p.releaseTension : Int))
    snag := decide ((p.snagLimit : Int) ≤ tF) }

/-- A confirmation handed on by a sample: the first, or a standing one (R32, R34). -/
inductive Confirmation where
  | none | first | standing
deriving DecidableEq, Repr, Inhabited

/-- One condition's counter, active flag and confirmation after an evaluated sample of a state that watches it (R32). -/
def countSample (nIn : Nat) (agrees : Bool) (counter : Nat) (active : Bool) : Nat × Bool × Confirmation :=
  if active then
    if agrees then (0, true, .standing) else (0, false, .none)
  else if agrees then
    if counter + 1 = nIn then (0, true, .first) else (counter + 1, false, .none)
  else (0, false, .none)

/-- What an evaluated sample does to the surge counter: the new counter, and whether it confirms the start (flag clear) or
the end (flag set) (R36, R37). -/
def countSurge (p : LineProfile) (delta : Int) (flag : Bool) (counter : Nat) : Nat × Bool :=
  let agrees :=
    if flag then decide ((delta.natAbs : Int) ≤ exitThreshold p.surgeThreshold p.surgeHyst)
    else decide ((p.surgeThreshold : Int) ≤ delta.natAbs)
  let needed := if flag then max 1 p.debounceOut else max 1 p.debounceIn
  if agrees then
    if counter + 1 = needed then (0, true) else (counter + 1, false)
  else (0, false)

/-- Any of a channel's counters is non-zero (R40). -/
def DetectorChannel.anyCounter (d : DetectorChannel) : Bool :=
  d.counters.render != 0 || d.counters.slack != 0 || d.counters.target != 0 || d.counters.release != 0
    || d.counters.snag != 0 || d.surgeCounter != 0

/-! ## Net payout (R97) -/

/-- Net payout in steps (R97). -/
def netPayout (s : State) (l : Line) : Int := (s.drum.get l).position - (s.lcu.get l).lockPosition

/-- Net payout in mm, truncated toward zero (R97). -/
def netPayoutMm (s : State) (l : Line) : Int := (netPayout s l * (s.profile l).stepUm).tdiv 1000

/-- The allowance in steps (R97). -/
def allowanceSteps (p : LineProfile) : Nat := floorDiv (p.allowance * 1000) p.stepUm

/-- A distance in cm as steps (R49, R55). -/
def distanceSteps (cm stepUm : Nat) : Nat := floorDiv (cm * 10000) stepUm

/-! ## The call's conditions and the permits (R135 to R137) -/

/-- A call is open in every phase but IDLE (R128). -/
def CallRecord.isOpen (c : CallRecord) : Bool := c.phase != .idle

/-- A call is bound when it is open and its vessel code is not 0 (R128). -/
def CallRecord.isBound (c : CallRecord) : Bool :=
  c.isOpen && match c.vesselCode with | some code => code != 0#16 | none => false

/-- Whole seconds of the call time. -/
def CallRecord.time (c : CallRecord) : Nat := c.timeMs / 1000

/-- The call time a capture records: absent if no call is open (R142). -/
def CallRecord.stamp (c : CallRecord) : Option Nat := if c.isOpen then some c.time else none

/-- Made Fast (R135). -/
def madeFast (u : Supervisor) : Bool :=
  u.call.isOpen && u.call.assigned.anyB (fun _ a => a)
    && u.call.assigned.allB fun l a => !a || latched (u.view.get l).state

/-- A line's part in the Depart condition (R135). -/
def departs (v : LineView) : Bool :=
  match v.state with
  | .disabled => true
  | .stowed => true
  | .slackOut => true
  | .rewinding => true
  | .halted => v.latchIntent == some .rest
  | .fault => v.lastLatch == some .opened
  | _ => false

/-- The Depart condition (R135). -/
def departCondition (u : Supervisor) : Bool := u.view.allB fun _ v => departs v

/-- No line of the assigned set has its surge flag or an inhibit flag set in the line view (R136). -/
def assignedFlagsClear (u : Supervisor) : Bool :=
  u.call.assigned.allB fun l a =>
    !a || (!(u.view.get l).surge && !(u.view.get l).renderInhibited && !(u.view.get l).recoverInhibited)

/-- RAMP_PERMIT's conditions (R136). -/
def rampCondition (u : Supervisor) : Bool :=
  u.adoptionComplete && u.call.phase == .moored && madeFast u && assignedFlagsClear u && !u.stop.level && !u.trip.level

/-- DEPART_PERMIT's conditions (R137). -/
def departPermitCondition (u : Supervisor) : Bool := u.adoptionComplete && departCondition u

/-! ## Quadrature (R43, R44) -/

/-- The decoder state of a level pair (3.1). -/
def Quad.ofPins (p : EncoderPins) : Quad :=
  match p.a, p.b with
  | false, false => .q0
  | true, false => .q1
  | true, true => .q2
  | false, true => .q3

/-- The next state in the payout order Q0, Q1, Q2, Q3, Q0 (R43, R57). -/
def Quad.next : Quad → Quad
  | .q0 => .q1 | .q1 => .q2 | .q2 => .q3 | .q3 => .q0

/-- The state before in the payout order. -/
def Quad.prev : Quad → Quad
  | .q0 => .q3 | .q1 => .q0 | .q2 => .q1 | .q3 => .q2

end Sys2Proof.Machine
end

