-- ==== Sys2Proof/Machine/Supervision.lean ====
section
/-! DEFINITION. The Berth Supervisor's own work: phases, permits, adoption complete, captures, and what notices do to its view
(chapter 7). -/

namespace Sys2Proof.Machine

/-- Both permits re-evaluated; a change of either raises PERMIT (R136 to R138). -/
def evalPermits (s : State) : State :=
  let ramp := rampCondition s.sup
  let depart := departPermitCondition s.sup
  let t := s.setSup { s.sup with rampPermit := ramp, departPermit := depart }
  if ramp == s.sup.rampPermit && depart == s.sup.departPermit then t else raise .permit .berth t

/-- Each LMU channel is told whether its line is in the assigned set of an open call (R20, R130). -/
def tellAssignment (s : State) : State :=
  { s with lmu := s.lmu.imap fun l c =>
      { c with assignedView := s.sup.call.isOpen && s.sup.call.assigned.get l } }

/-- The phase set, with CALL raised (R132). -/
def setPhase (p : CallPhase) (s : State) : State :=
  raise .call .berth (s.setSup { s.sup with call := { s.sup.call with phase := p } })

/-- ARRIVING goes to MOORED when Made Fast holds, recording the made-fast time (R132). -/
def advanceArriving (s : State) : State :=
  if s.sup.call.phase = .arriving && madeFast s.sup then
    setPhase .moored (s.setSup { s.sup with call := { s.sup.call with
      madeFastTime := some (s.sup.call.madeFastTime.getD s.sup.call.time) } })
  else s

/-- LETTING_GO goes to CLEAR when the Depart condition holds (R132). -/
def advanceLettingGo (s : State) : State :=
  if s.sup.call.phase = .lettingGo && departCondition s.sup then setPhase .clear s else s

/-- The phase after an event that can change Made Fast or the Depart condition (R132, R135). -/
def advancePhase (s : State) : State := advanceLettingGo (advanceArriving s)

/-- A call in MOORED begins to let go (R132). -/
def beginLetGo (s : State) : State :=
  if s.sup.call.phase = .moored then setPhase .lettingGo s else s

/-- The adopted call opened over the lines of the latched family; captures taken since the reset stay (R142, R144, R146; log
entry 54). -/
def openAdopted (s : State) : State :=
  let held : LineSet := s.sup.view.imap fun _ v => latched v.state
  if held.anyB (fun _ a => a) then
    raise .call .berth (tellAssignment (s.setSup { s.sup with
      call := { s.sup.call with
        phase := .moored, vesselCode := some 0, assigned := held, number := 0, timeMs := 0,
        madeFastTime := some 0 } }))
  else s

/-- The Supervisor's adoption-complete flag given a value (R129, R197). -/
def setAdoption (complete : Bool) (s : State) : State := s.setSup { s.sup with adoptionComplete := complete }

/-- Adoption complete is set at the first moment after a reset when no line is ADOPTING, and the call is settled
(R146, R197). -/
def settleAdoption (s : State) : State :=
  if !s.sup.adoptionComplete && s.sup.view.allB (fun _ v => v.state != .adopting) then
    openAdopted (setAdoption true s)
  else s

/-- The view of a line changed. -/
def setView (l : Line) (v : LineView) (s : State) : State :=
  s.setSup { s.sup with view := s.sup.view.set l v }

/-- A DISABLED line leaves the assigned set (R134). -/
def dropAssigned (l : Line) (s : State) : State :=
  if s.sup.call.assigned.get l then
    raise .call .berth (tellAssignment (s.setSup { s.sup with call := { s.sup.call with
      assigned := s.sup.call.assigned.set l false } }))
  else s

/-- A state-change notice at the Supervisor (R60, R129, R132, R134, R138, R197). The view takes the notice; a line of the
assigned set that goes to EASING, UNLATCHING or TRIPPED lets a MOORED call go. -/
def supNotice (l : Line) (s : State) : State :=
  let c := s.lcu.get l
  let v := s.sup.view.get l
  let gone := c.state == .disabled
  let v' : LineView :=
    { v with
      state := c.state
      latchIntent := c.intent.map (·.latch)
      lastLatch := c.lastStatus.map (·.latch)
      renderInhibited := !gone && v.renderInhibited
      recoverInhibited := !gone && v.recoverInhibited }
  let s := setView l v' s
  let s := if gone then dropAssigned l s else s
  let leaving := v.state != c.state && (c.state == .easing || c.state == .unlatching || c.state == .tripped)
  let s := if leaving && s.sup.call.assigned.get l then beginLetGo s else s
  evalPermits (settleAdoption (advancePhase s))

/-- A surge start at the Supervisor: counted for an assigned line of an open call (R36). -/
def supSurgeStart (l : Line) (s : State) : State :=
  let s := setView l { s.sup.view.get l with surge := true } s
  let c := s.sup.call
  evalPermits (if c.isOpen && c.assigned.get l then
    s.setSup { s.sup with call := { c with surgeCount := satInc 65535 c.surgeCount } } else s)

/-- A surge end at the Supervisor (R38). -/
def supSurgeEnd (l : Line) (s : State) : State :=
  evalPermits (setView l { s.sup.view.get l with surge := false } s)

/-- A fault notice at the Supervisor: counted, and captured if none is (R144). -/
def supFault (l : Line) (cause : FaultCause) (s : State) : State :=
  s.setSup { s.sup with
    faultCount := satInc 15 s.sup.faultCount
    firstFault := some (s.sup.firstFault.getD ⟨l, cause, s.sup.call.stamp⟩) }

/-- An overload notice at the Supervisor: counted, and captured with the net payout if none is (R143). -/
def supOverload (l : Line) (tF : Int) (s : State) : State :=
  s.setSup { s.sup with
    overloadCount := satInc 15 s.sup.overloadCount
    firstOverload := some (s.sup.firstOverload.getD ⟨l, tF, netPayoutMm s l, s.sup.call.stamp⟩) }

/-- The two inhibit flags of a line given their values; each that changes raises ALLOWANCE and is told to the Supervisor,
which re-evaluates the permits (R98). -/
def setRenderInhibit (l : Line) (v : Bool) (s : State) : State :=
  let c := s.lcu.get l
  if c.renderInhibited = v then s
  else
    let s := raise .allowance (.line l) (s.setLcu l { c with renderInhibited := v })
    evalPermits (setView l { s.sup.view.get l with renderInhibited := v } s)

@[inherit_doc setRenderInhibit]
def setRecoverInhibit (l : Line) (v : Bool) (s : State) : State :=
  let c := s.lcu.get l
  if c.recoverInhibited = v then s
  else
    let s := raise .allowance (.line l) (s.setLcu l { c with recoverInhibited := v })
    evalPermits (setView l { s.sup.view.get l with recoverInhibited := v } s)

/-- Both inhibit flags cleared (R83, R106, R109). -/
def clearInhibits (l : Line) (s : State) : State := setRecoverInhibit l false (setRenderInhibit l false s)

end Sys2Proof.Machine
end

