-- ==== Sys2Proof/Machine/Measurement.lean ====
section
/-! DEFINITION. The LMU channel's own work: gate starts, rate class, what notices do to it, the arithmetic of a sample, zero
capture and peak (chapter 1). -/

namespace Sys2Proof.Machine

/-- T_f of a channel (R11). -/
def LmuChannel.tF (c : LmuChannel) : Int := accValue c.fAcc

/-- Ref of a channel (R14). -/
def LmuChannel.ref (c : LmuChannel) : Int := accValue c.rAcc

/-- A gate starts in the class the channel holds (R2); a channel of no class starts none. -/
def LmuChannel.gateStarted (p : LineProfile) (c : LmuChannel) : LmuChannel :=
  match c.rateClass with
  | none => c
  | some cls =>
    { c with
      gate := .armed, gUsed := gateLength cls p.gateCode, tickCount := 0, deferred := false
      deadline := some 100, sampleTimer := some (classPeriod cls) }

@[inherit_doc LmuChannel.gateStarted]
def gateStart (l : Line) (s : State) : State := s.setLmu l ((s.lmu.get l).gateStarted (s.profile l))

/-- The rate class recomputed from the channel's views (R7). -/
def LmuChannel.reclassed (c : LmuChannel) : LmuChannel :=
  { c with rateClass := rateClassOf c.stateView c.counterView c.surgeView }

/-- The Detector tells the channel whether any counter is non-zero (R7, R40). -/
def tellCounters (l : Line) (v : Bool) (s : State) : State :=
  s.setLmu l { s.lmu.get l with counterView := v }.reclassed

/-- The Detector tells the channel of the surge flag (R7, R36, R38). -/
def tellSurge (l : Line) (v : Bool) (s : State) : State :=
  s.setLmu l { s.lmu.get l with surgeView := v }.reclassed

/-- A reseed request (R15): Ref becomes T_f and the hold timer stops. -/
def LmuChannel.reseeded (c : LmuChannel) : LmuChannel := { c with rAcc := c.tF * 256, holdTimer := none }

/-- The LCU's reseed request at an entry to HOLDING (R15, R83). -/
def reseed (l : Line) (s : State) : State := s.setLmu l (s.lmu.get l).reseeded

/-- A state-change notice at a channel, as the channel itself changes: the hold timer stops out of HOLDING (R16), a zero
capture starts at entry to STOWED with auto-zero set and ends out of STOWED (R21, R23), ADOPTING clears the miss count
(R19), an exit from DISABLED marks the channel not seeded (R6), and DISABLED stops it (R6). -/
def LmuChannel.noticed (p : LineProfile) (new : LineState) (c : LmuChannel) : LmuChannel :=
  let old := c.stateView
  let d : LmuChannel :=
    { c with
      stateView := new
      holdTimer := if new = .holding then c.holdTimer else none
      zeroCapture :=
        if new = .stowed then
          if old = .stowed then c.zeroCapture else if p.autoZero then some ⟨0, 0⟩ else none
        else none
      missCount := if new = .adopting then 0 else c.missCount
      seeded := c.seeded && !(old = .disabled && new = .adopting) }
  if new = .disabled then
    { d with gate := .idle, deadline := none, sampleTimer := none, deferred := false }.reclassed
  else d.reclassed

/-- A state-change notice at the LMU channel; a line that leaves DISABLED starts a gate at once (R6). -/
def lmuNotice (l : Line) (s : State) : State :=
  let c := s.lmu.get l
  let new := s.stateOf l
  let t := s.setLmu l (c.noticed (s.profile l) new)
  if c.stateView = .disabled && new = .adopting then gateStart l t else t

/-! ## The sample (R9 to R19) -/

/-- The kinds of a completed sample (R17). -/
inductive SampleKind where
  | good | noSignal | unseeded
deriving DecidableEq, Repr, Inhabited

/-- The sample record handed to the recipients (R17). `lost` marks the sample that raises SENSOR_LOST (R19). -/
structure Sample where
  kind  : SampleKind
  tRaw  : Nat
  tF    : Int
  delta : Int
  ref   : Int
  state : LineState
  lost  : Bool
deriving DecidableEq, Repr, Inhabited

/-- The filter step (R11). -/
def LmuChannel.filtered (p : LineProfile) (c : LmuChannel) : LmuChannel :=
  { c with fAcc := approach c.fAcc c.tRaw p.betaF }

/-- The reference rule of the line's state, and the hold timer with it (R14, R16). -/
def LmuChannel.referred (p : LineProfile) (delta : Int) (c : LmuChannel) : LmuChannel :=
  match c.stateView with
  | .holding =>
    if (delta.natAbs : Int) < p.haltThreshold && !c.surgeView then
      { c with rAcc := approach c.rAcc c.tF p.betaR, holdTimer := none }
    else { c with holdTimer := some (c.holdTimer.getD (p.haltLimit * 1000)) }
  | .rendering => c
  | .recovering => c
  | _ => { c with rAcc := c.tF * 256 }

/-- The filter, delta and reference of a seeded channel: the channel and its delta (R11, R13, R14). -/
def LmuChannel.tracked (p : LineProfile) (c : LmuChannel) : LmuChannel × Int :=
  let f := c.filtered p
  let delta := f.tF - c.ref
  (f.referred p delta, delta)

/-- A channel that a good gate has completed on, and its sample record (R3, R9 to R14, R19). -/
def LmuChannel.goodSample (p : LineProfile) (ticks : Nat) (c : LmuChannel) : LmuChannel × Sample :=
  let f16 := frequencyOf c.gUsed ticks
  let tRaw := rawTension f16 c.workingZero16 p.span
  let c' : LmuChannel :=
    { c with gate := .idle, deadline := none, tickCount := ticks, f16 := f16, tRaw := tRaw, missCount := 0 }
  let r : LmuChannel × Int :=
    if c.seeded then c'.tracked p
    else ({ c' with fAcc := tRaw * 256, rAcc := tRaw * 256, seeded := true }, 0)
  (r.1, ⟨.good, tRaw, r.1.tF, r.2, r.1.ref, c.stateView, false⟩)

/-- A channel whose gate has ended as a NO_SIGNAL sample, and its sample record (R4, R12, R18, R19). -/
def LmuChannel.noSignal (p : LineProfile) (c : LmuChannel) : LmuChannel × Sample :=
  let c' : LmuChannel :=
    { c with gate := .idle, deadline := none, tickCount := 0, missCount := satInc 255 c.missCount }
  let r : LmuChannel × Int := if c.seeded then c'.tracked p else (c', 0)
  (r.1, ⟨if c.seeded then .noSignal else .unseeded, r.1.tRaw, r.1.tF, r.2, r.1.ref, c.stateView, c.missCount == 2⟩)

/-! ## Peak and zero capture (R20 to R23) -/

/-- The peak after a delivered sample: raised for an assigned line of an open call (R20). -/
def LmuChannel.peaked (m : Sample) (c : LmuChannel) : LmuChannel :=
  if c.assignedView && m.kind != .unseeded then { c with peak := max c.peak m.tF } else c

/-- A good sample of a STOWED line added to its capture; the sixteenth is judged against the stored zero16 and the zero band,
and gives the event of the judgement (R22). -/
def LmuChannel.captured (p : LineProfile) (z : ZeroCapture) (c : LmuChannel) : LmuChannel × Option EventKind :=
  if z.count + 1 < 16 then
    ({ c with zeroCapture := some ⟨z.count + 1, z.sum + c.f16⟩ }, none)
  else
    let candidate := (z.sum + c.f16) / 16
    if ((candidate : Int) - p.zero16).natAbs ≤ p.zeroBand then
      ({ c with zeroCapture := none, workingZero16 := candidate }, some .zeroDone)
    else ({ c with zeroCapture := none }, some .zeroError)

/-- The channel's own peak and zero capture on a delivered sample (R17, R20, R22, R23). A NO_SIGNAL sample finds no capture record
where the line has left STOWED on the same sample before it comes here (log entry 56). -/
def ownDelivery (l : Line) (m : Sample) (s : State) : State :=
  let c := (s.lmu.get l).peaked m
  match c.zeroCapture with
  | none => s.setLmu l c
  | some z =>
    if m.kind = .good then
      if m.state = .stowed then
        let r := c.captured (s.profile l) z
        let t := s.setLmu l r.1
        match r.2 with
        | none => t
        | some k => raise k (.line l) t
      else s.setLmu l c
    else raise .zeroError (.line l) (s.setLmu l { c with zeroCapture := none })

/-- A zero capture started or restarted by ZERO (R21, R76). -/
def startCapture (l : Line) (s : State) : State :=
  s.setLmu l { s.lmu.get l with zeroCapture := some ⟨0, 0⟩ }

/-- A profile applied at the channel: the new stored zero16 works, the channel is not seeded, and a capture ends, or starts
afresh where the apply is taken at the line's entry into STOWED with auto-zero set (R24). -/
def LmuChannel.applied (p : LineProfile) (atStow : Bool) (c : LmuChannel) : LmuChannel :=
  { c with
    workingZero16 := p.zero16, seeded := false
    zeroCapture := if atStow && p.autoZero then some ⟨0, 0⟩ else none }

/-- Every peak set to 0 (R20, R130, R145). -/
def clearPeaks (s : State) : State := { s with lmu := s.lmu.imap fun _ c => { c with peak := 0 } }

end Sys2Proof.Machine
end

