-- ==== Sys2Proof/Machine/Detection.lean ====
section
/-! DEFINITION. The Condition Detector channel: what a state-change notice and an evaluated sample do to it (chapter 2). -/

namespace Sys2Proof.Machine

/-- "Any counter non-zero" compared with the pending indicator, and the LMU told of a difference (R40). -/
def signalCounters (l : Line) (s : State) : State :=
  let d := s.det.get l
  if d.anyCounter = d.pendingIndicator then s
  else tellCounters l d.anyCounter (s.setDet l { d with pendingIndicator := d.anyCounter })

/-- The effects of a surge end besides the flag and counter: SURGE raised, the Supervisor and the LMU told (R38). -/
def surgeEnded (l : Line) (s : State) : State := tellSurge l false (supSurgeEnd l (raise .surge (.line l) s))

/-- The effects of a surge start besides the flag and counter (R36). -/
def surgeStarted (l : Line) (s : State) : State := tellSurge l true (supSurgeStart l (raise .surge (.line l) s))

/-- A channel after a state-change notice: a condition watched in the new state keeps its counter, every active flag clears,
and outside the latched family the surge counter and flag clear (R27). -/
def DetectorChannel.noticed (new : LineState) (d : DetectorChannel) : DetectorChannel :=
  let w := watched new
  { d with
    stateView := new
    counters := Conditions.ofFn fun k => if w.get k then d.counters.get k else 0
    active := Conditions.const false
    surgeCounter := if latched new then d.surgeCounter else 0
    surgeFlag := latched new && d.surgeFlag }

/-- The notice ends a standing surge: the flag is set and the new state is outside the latched family (R27). -/
def noticeEndsSurge (l : Line) (s : State) : Bool := (s.det.get l).surgeFlag && !latched (s.stateOf l)

/-- A state-change notice at the Detector channel (R27, R38, R40). -/
def detNotice (l : Line) (s : State) : State :=
  let ends := noticeEndsSurge l s
  let t := s.setDet l ((s.det.get l).noticed (s.stateOf l))
  signalCounters l (if ends then surgeEnded l t else t)

/-- An evaluated sample at a channel: the new channel, the confirmations of the five conditions, and whether the surge start
or end is confirmed (R31, R32, R36, R37). Conditions the state does not watch are left as they are (R26). -/
def DetectorChannel.sampled (p : LineProfile) (target : Nat) (m : Sample) (d : DetectorChannel) :
    DetectorChannel × Conditions Confirmation × Bool :=
  let w := watched d.stateView
  let tests := conditionTests p target m.tF
  let r : Conditions (Nat × Bool × Confirmation) := Conditions.ofFn fun k =>
    if w.get k then countSample (max 1 p.debounceIn) (tests.get k) (d.counters.get k) (d.active.get k)
    else (d.counters.get k, d.active.get k, .none)
  let surge := if latched d.stateView then countSurge p m.delta d.surgeFlag d.surgeCounter else (d.surgeCounter, false)
  ({ d with
     counters := Conditions.ofFn fun k => (r.get k).1
     active := Conditions.ofFn fun k => (r.get k).2.1
     surgeCounter := surge.1
     surgeFlag := if surge.2 then !d.surgeFlag else d.surgeFlag },
   Conditions.ofFn fun k => (r.get k).2.2, surge.2)

end Sys2Proof.Machine
end

