-- ==== Sys2Proof/Machine/Drum.lean ====
section
/-! DEFINITION. The Drum Counter channel's soft zone, limits and speed, and the Length Repeater (chapter 3). -/

namespace Sys2Proof.Machine

/-! ## Length Repeater (R54 to R58) -/

/-- The band of a position: its floor over the unit steps, absent while the unit is 0 or the position unreferenced (R55). -/
def bandOf (unitSteps : Nat) (d : DrumChannel) : Option Int :=
  if unitSteps = 0 || !d.referenced then none else some (d.position.fdiv unitSteps)

/-- Unit steps for a selection: from the berth profile's unit and the selected line's step size; 0 for none, and for a line
that has no working copy and so no step size (R54, R55). -/
def unitStepsFor (s : State) (sel : Option Line) : Nat :=
  match sel with
  | none => 0
  | some l =>
    match s.store.working.get l with
    | none => 0
    | some p => distanceSteps s.store.workingBerth.repeaterUnit p.stepUm

/-- The band taken afresh from the selected line's position, or made absent (R54, R55). -/
def retakeBand (s : State) : State :=
  s.setRepeater { s.repeater with band :=
    match s.repeater.selected with
    | none => none
    | some l => bandOf s.repeater.unitSteps (s.drum.get l) }

/-- The unit steps recomputed and the band retaken (R55). -/
def recomputeUnit (s : State) : State :=
  retakeBand (s.setRepeater { s.repeater with unitSteps := unitStepsFor s s.repeater.selected })

/-- The repeater after a step of the selected line (R55, R56). -/
def Repeater.stepped (d : DrumChannel) (r : Repeater) : Repeater :=
  match bandOf r.unitSteps d with
  | none => { r with band := none }
  | some now =>
    match r.band with
    | none => { r with band := some now }
    | some b =>
      if now > b then { r with band := some (b + 1), pendingCount := min 1023 (r.pendingCount + 1) }
      else if now < b then { r with band := some (b - 1), pendingCount := max (-1023) (r.pendingCount - 1) }
      else r

/-- A step of a line handed to the repeater (R46, R55). -/
def repeaterStep (l : Line) (s : State) : State :=
  if s.repeater.selected = some l then s.setRepeater (s.repeater.stepped (s.drum.get l)) else s

/-- A change of a line's position or reference that is no step, at the repeater (R48, R55). -/
def repeaterMoved (l : Line) (s : State) : State :=
  if s.repeater.selected = some l then retakeBand s else s

/-- The flank period: a flank delay of 0 is taken as 1 ms (R57). -/
def flankPeriod (b : BerthProfile) : Nat := max 1 b.flankDelay

/-- The repeater after a flank expiry (R57). -/
def Repeater.flanked (period : Nat) (r : Repeater) : Repeater :=
  if r.pendingCount > 0 then { r with output := r.output.next, pendingCount := r.pendingCount - 1, flankTimer := period }
  else if r.pendingCount < 0 then
    { r with output := r.output.prev, pendingCount := r.pendingCount + 1, flankTimer := period }
  else { r with flankTimer := period }

/-! ## Soft zone and limits (R48 to R50) -/

/-- The soft zone indication, set within the zone: R50, where R47 has a referencing clear it (log entry 52). -/
def inSoftZone (d : DrumChannel) : Bool := !d.referenced || decide (d.position ≤ d.softZoneSteps)

/-- The soft zone indication recomputed; a change is told to the LCU, whose intent follows it in REWINDING (R50, R63). -/
def softZoneTest (l : Line) (s : State) : State :=
  let d := s.drum.get l
  let now := inSoftZone d
  if now = d.softZone then s
  else
    let t := s.setDrum l { d with softZone := now }
    let t := t.setLcu l { t.lcu.get l with softZoneView := now }
    if t.stateOf l = .rewinding then refreshIntent l false t else t

/-- The distance limits set, the payout maximum passed to the Render Regulator (R49). -/
def setLimits (l : Line) (soft payout : Nat) (s : State) : State :=
  let t := s.setDrum l { s.drum.get l with softZoneSteps := soft, payoutMaxSteps := payout }
  t.setReg l { t.reg.get l with payoutMax := payout }

/-- The distance limits of a profile (R49). -/
def setProfileLimits (l : Line) (p : LineProfile) (s : State) : State :=
  setLimits l (distanceSteps p.softZone p.stepUm) (distanceSteps p.payoutMax p.stepUm) s

/-- A channel at entry into DISABLED (R45). -/
def DrumChannel.disabled (d : DrumChannel) : DrumChannel :=
  { d with position := 0, referenced := false, errorCount := 0, stepAcc := 0, speed := 0
           stationaryTimer := none, stationary := true }

/-- A state-change notice at the Drum Counter: entry into DISABLED and exit from it (R45, R58). -/
def drumNotice (l : Line) (old : LineState) (s : State) : State :=
  let new := s.stateOf l
  if new = .disabled && old != .disabled then
    let t := softZoneTest l (setLimits l 0 0 (s.setDrum l (s.drum.get l).disabled))
    if t.repeater.selected = some l then t.setRepeater { t.repeater with pendingCount := 0, band := none } else t
  else if old = .disabled && new = .adopting then
    let t := setProfileLimits l (s.profile l) s
    t.setDrum l { t.drum.get l with windowStart := t.now, stationaryTimer := some 1000, stationary := false }
  else s

/-- A channel after a sample completion closes its speed window (R51). -/
def DrumChannel.windowClosed (p : LineProfile) (now : Nat) (d : DrumChannel) : DrumChannel :=
  { d with
    speed := clampInt (-32767) 32767 ((d.stepAcc * p.stepUm).tdiv (max 1 (now - d.windowStart) : Nat))
    stepAcc := 0, windowStart := now }

/-- A sample completion at the Drum Counter (R17, R51). -/
def drumSample (l : Line) (s : State) : State :=
  s.setDrum l ((s.drum.get l).windowClosed (s.profile l) s.now)

end Sys2Proof.Machine
end

