-- ==== Sys2Proof/Machine/LineControl.lean ====
section
/-! DEFINITION. The LCU channel: entry to a state with its intent, timer and notices, and the Render Regulator's part in a
state change (chapters 4 and 5). -/

namespace Sys2Proof.Machine

/-- A timer limit of a profile in ms: a field holding 0 is taken as 1 s (R64). -/
def limitMs (seconds : Nat) : Nat := max 1 seconds * 1000

/-- The state timer that an entry into a state starts (R64). -/
def stateTimer (p : LineProfile) : LineState → Option StateTimer
  | .attaching => some ⟨.attach, limitMs p.attachLimit⟩
  | .tensioning => some ⟨.tension, limitMs p.tensionLimit⟩
  | .easing => some ⟨.ease, limitMs p.easeLimit⟩
  | .unlatching => some ⟨.latch, limitMs p.latchLimit⟩
  | .tripped => some ⟨.latch, limitMs p.latchLimit⟩
  | .rewinding => some ⟨.rewind, limitMs p.rewindLimit⟩
  | .disabled => none
  | .adopting => none
  | .stowed => none
  | .holding => none
  | .rendering => none
  | .recovering => none
  | .slackOut => none
  | .halted => none
  | .fault => none

/-- A channel placed in a state (R60): resume state and fault cause as given, the timer by R64, and what a line waits for in
ADOPTING begun afresh (R194). ADOPTING marks the last sensed status older (R77); DISABLED clears what R95 names. -/
def LcuChannel.placed (p : LineProfile) (new : LineState) (resume : Option Resume) (cause : Option FaultCause)
    (c : LcuChannel) : LcuChannel :=
  let d : LcuChannel :=
    { c with state := new, resume := resume, faultCause := cause, timer := stateTimer p new
             freshStatus := none, freshSample := false }
  match new with
  | .adopting => { d with lastStatus := d.lastStatus.map fun st => { st with old := true } }
  | .disabled => { d with renderInhibited := false, recoverInhibited := false, workingTarget := 0, lastStatus := none }
  | _ => d

/-- A state-change notice at the Render Regulator: an exit from RENDERING with the render record present cancels the render
(R102). -/
def regNotice (l : Line) (s : State) : State :=
  let r := s.reg.get l
  let new := s.stateOf l
  if r.rendering && r.stateView = .rendering && new != .rendering then
    raise .render (.line l) (s.setReg l { r with stateView := new, rendering := false, speed := 0 })
  else s.setReg l { r with stateView := new }

/-- The notice to the recipients that make no further change of line state (R60). The Detector's surge end and the Supervisor
may take it in either order, which is drawn where it matters (log entry 11). -/
def notify (l : Line) (old : LineState) (s : State) : State :=
  let s := regNotice l (drumNotice l old (lmuNotice l s))
  let s :=
    if noticeEndsSurge l s && Config.choice s.choices then supNotice l (detNotice l s.drawn)
    else if noticeEndsSurge l s then detNotice l (supNotice l s.drawn)
    else supNotice l (detNotice l s)
  raise .lineState (.line l) s

/-- The line enters a state (R60): record, intent with its COMMAND, timer, notices, LINE_STATE; and at HOLDING the reseed
request (R83). -/
def enter (l : Line) (new : LineState) (resume : Option Resume) (cause : Option FaultCause) (s : State) : State :=
  let c := s.lcu.get l
  let s := s.setLcu l (c.placed (s.profile l) new resume cause)
  let s := notify l c.state (refreshIntent l (new = .tripped) s)
  if new = .holding then reseed l s else s

/-- A state entered with no resume state and no fault cause. -/
def enterPlain (l : Line) (new : LineState) (s : State) : State := enter l new none none s

/-- A notice and LINE_STATE without a change of state: a HALTED line's resume state or latch intent, or a FAULT line's last
sensed latch, has changed (R60, R63). -/
def renotify (l : Line) (s : State) : State :=
  raise .lineState (.line l) (supNotice l (refreshIntent l false s))

/-- A HALTED line's resume state changes (R71, R80). -/
def changeResume (l : Line) (r : Resume) (s : State) : State :=
  renotify l (s.setLcu l { s.lcu.get l with resume := some r })

/-! ## Line commands that the Let-Go Sequencer hands on too (R72, R74, R90) -/

/-- RELEASE at the LCU, the plan mark apart (R72). -/
def lcuRelease (l : Line) (s : State) : State × ReplyCode :=
  let c := s.lcu.get l
  if !c.panel.rampClear then (s, .rampDown)
  else if c.panel.stop then (s, .stopped)
  else if latched c.state then (enterPlain l .easing s, .ok)
  else (s, .wrongState)

/-- The states a trip does not take (R90). -/
def untrippable : LineState → Bool
  | .disabled => true
  | .stowed => true
  | .slackOut => true
  | .rewinding => true
  | _ => false

/-- TRIP at the LCU (R90). -/
def lcuTrip (l : Line) (s : State) : State × ReplyCode :=
  let st := s.stateOf l
  if untrippable st then (s, .wrongState)
  else if st = .tripped then (s, .ok)
  else (raise .trip (.line l) (enterPlain l .tripped s), .ok)

/-- The line state of a resume state. -/
def Resume.state : Resume → LineState
  | .attaching => .attaching
  | .tensioning => .tensioning
  | .easing => .easing
  | .rewinding => .rewinding

/-- RESUME at the LCU, the plan mark apart (R74). A HALTED line always has a resume state. -/
def lcuResume (l : Line) (s : State) : State × ReplyCode :=
  let c := s.lcu.get l
  if c.panel.stop then (s, .stopped)
  else if c.state = .halted then
    match c.resume with
    | some r => (enterPlain l r.state s, .ok)
    | none => (s, .wrongState)
  else (s, .wrongState)

end Sys2Proof.Machine
end

