-- ==== Sys2Proof/Machine/Sequencer.lean ====
section
/-! DEFINITION. The Let-Go Sequencer: steps, their issue and advance, holding, resuming and ending a plan (chapter 6). -/

namespace Sys2Proof.Machine

/-- The notice that sets the plan mark of a set of lines (R69, R113). By a free choice every channel takes it in the event that
sends it, or it is on its way to each of them, so that a command of a master can be judged before the mark stands. DESIGN CHOICE,
safe (log entry 61). -/
def sendMarks (lines : LineSet) (s : State) : State :=
  let now := Config.choice s.choices
  { s.drawn with lcu := s.lcu.imap fun l c =>
      if lines.get l then { c with planMark := c.planMark || now, markComing := c.markComing || !now } else c }

/-- The notice that sets the plan mark reaches a channel (R69, R113). -/
def takeMark (l : Line) (s : State) : State := s.setLcu l { s.lcu.get l with planMark := true, markComing := false }

/-- Plan marks of a set of lines cleared by a notice to the LCU, behind a notice that sets them (R69, R118). -/
def clearMarksOf (lines : LineSet) (s : State) : State :=
  { s with lcu := s.lcu.imap fun l c => if lines.get l then { c with planMark := false, markComing := false } else c }

/-- Every plan mark cleared (R69, R118, R124, R126). -/
def clearMarks (s : State) : State := clearMarksOf (Lines.const true) s

/-- A step of a plan by its number, from step 1 (R110). -/
def PlanRecord.stepAt (p : PlanRecord) : Nat → Option PlanStep
  | 0 => none
  | n + 1 => p.steps[n]?

/-- The current step (R110). -/
def PlanRecord.currentStep (p : PlanRecord) : Option PlanStep := p.current.bind p.stepAt

/-- The lines of the current step. -/
def PlanRecord.currentLines (p : PlanRecord) : LineSet :=
  match p.currentStep with
  | some st => st.lines
  | none => Lines.const false

/-- The step limit of the working berth copy, ms (R117). -/
def stepLimitMs (s : State) : Nat := s.store.workingBerth.stepLimit * 1000

/-- A RUNNING plan goes HELD with a cause; a plan in any other state keeps its record (R120). -/
def holdPlan (cause : HoldCause) (s : State) : State :=
  if s.plan.state = .running then
    raise .plan .berth (s.setPlan { s.plan with
      state := .held, holdCause := some cause, delayRunning := false, stepTimer := none })
  else s

/-- The Sequencer takes the reply to a command it handed on: a refusal of a line of the current step holds a RUNNING plan
(R116). -/
def seqReply (l : Line) (code : ReplyCode) (s : State) : State :=
  if code != .ok && s.plan.currentLines.get l then holdPlan .lineNotReady s else s

/-! ## Commands handed to the LCU channels (R115, R116, R122) -/

/-- A command at the LCU channel of its line, past the plan mark: the line's other checks are a master's command's (R115, R122). -/
def lcuHanded (h : Handed) (s : State) : State × ReplyCode :=
  match h.command with
  | .release => lcuRelease h.line s
  | .trip => lcuTrip h.line s
  | .resume => lcuResume h.line s

/-- A step's command (R111). -/
def StepMode.command : StepMode → SeqCommand
  | .ease => .release
  | .trip => .trip

/-- A step's RELEASE or TRIP taken by its line, and the reply by the Sequencer (R115, R116). An entry to EASING or TRIPPED makes
no line clear and is no failure, so its notice changes nothing at the Sequencer (R118, R119). -/
def takeStepCommand (s : State) (h : Handed) : State :=
  let r := lcuHanded h s
  seqReply h.line r.2 r.1

/-- Commands handed to the LCU channels, which take them separately and in no order among them (R115). By a free choice they are
all taken in the event that hands them on, in a free order, or are all on their way, so that a STOP activation, a RAMP_CLEAR
release or a TRIP can reach the LCU before them (R116). Behind commands or marks still on their way they are on their way too.
DESIGN CHOICE, safe (log entry 57). -/
def hand (take : State → Handed → State) (commands : List Handed) (s : State) : State :=
  if s.handed.isEmpty && s.lcu.allB (fun _ c => !c.markComing) && Config.choice s.choices then inFreeOrder take commands s.drawn
  else { s.drawn with handed := s.handed ++ commands }

/-- The current step is issued: its phase, its timer, and a command handed to each of its lines (R115). -/
def issueStep (st : PlanStep) (s : State) : State :=
  hand takeStepCommand ((linesOf st.lines).map fun l => ⟨l, st.mode.command⟩)
    (s.setPlan { s.plan with
      phase := some .issued, stepTimer := some (stepLimitMs s), delayRemaining := 0, delayRunning := false })

/-- The issue check of a step passes (R115). -/
def issueReady (st : PlanStep) (s : State) : Bool :=
  (st.lines.allB fun l a => !a || latched (s.stateOf l)) && (st.mode == .trip || s.plan.panelRampClear)

/-- The issue check of the current step (R115). A change can reach the LCU between the check and the commands that it lets out
(R116; `hand`). -/
def issueCheck (s : State) : State :=
  match s.plan.currentStep with
  | none => s
  | some st =>
    if issueReady st s then issueStep st s
    else holdPlan .lineNotReady (s.setPlan { s.plan with delayRemaining := 0, delayRunning := false })

/-- A step becomes current with the plan RUNNING: its delay starts, or it is issued at once (R111, R113, R118). -/
def makeCurrent (n : Nat) (s : State) : State :=
  match s.plan.stepAt n with
  | none => s
  | some st =>
    let t := s.setPlan { s.plan with
      current := some n, phase := some .delay, delayRemaining := st.delay * 500, delayRunning := st.delay != 0
      stepTimer := none }
    if st.delay = 0 then issueCheck t else t

/-- The current step advances (R118). -/
def advanceStep (s : State) : State :=
  let t := clearMarksOf s.plan.currentLines (s.setPlan { s.plan with stepTimer := none })
  let n := s.plan.current.getD 0
  raise .plan .berth
    (if n < s.plan.steps.length then makeCurrent (n + 1) t
     else clearMarks (t.setPlan { t.plan with state := .done }))

/-- Every line of the current step is clear (R118). -/
def stepClear (s : State) : Bool := s.plan.currentLines.allB fun l a => !a || isClear (s.stateOf l)

/-- A state-change notice at the Sequencer, with the EASE_FAILED that may go with it (R118, R119). -/
def seqNotice (l : Line) (easeFailed : Bool) (s : State) : State :=
  if s.plan.state == .running && s.plan.phase == some .issued && s.plan.currentLines.get l then
    if easeFailed || s.stateOf l == .fault || s.stateOf l == .disabled then holdPlan .lineFailed s
    else if stepClear s then advanceStep s
    else s
  else s

/-! ## Plan requests -/

/-- The master that a sender is. -/
def senderMaster : Sender → Master
  | .shore => .shore
  | .vessel _ => .vessel

/-- The delay used for a step: at most 120 half-seconds (R111). -/
def usedDelay (f : PlanStepField) : Nat := min 120 f.delay.toNat

/-- A submitted step as the record holds it (R111). -/
def planStepOf (f : PlanStepField) : PlanStep :=
  ⟨f.lines, usedDelay f, match f.mode with | .trip => .trip | .ease => .ease | .other => .ease⟩

/-- A submitted step fails a test of R112: an empty line set, a line not assigned, one of an earlier step or one not in the
latched family, or a mode that is neither. -/
def stepFails (s : State) (earlier : List PlanStepField) (f : PlanStepField) : Bool :=
  !f.lines.anyB (fun _ a => a)
  || f.lines.anyB (fun l a => a && !s.sup.call.assigned.get l)
  || f.lines.anyB (fun l a => a && earlier.any fun e => e.lines.get l)
  || f.lines.anyB (fun l a => a && !latched (s.stateOf l))
  || f.mode == .other

/-- The number of the first of some steps that fails, those before it and their count given. -/
def firstFailing (s : State) (earlier : List PlanStepField) (n : Nat) : List PlanStepField → Option Nat
  | [] => none
  | f :: rest => if stepFails s earlier f then some n else firstFailing s (earlier ++ [f]) (n + 1) rest

/-- The number of the step that makes a list of steps a BAD_PLAN; a count outside 1 to 8 is reported as 0 (R112). -/
def badStep (s : State) (steps : List PlanStepField) : Option Nat :=
  if steps.length = 0 || 8 < steps.length then some 0 else firstFailing s [] 1 steps

/-- The lines of every step of a list. -/
def allLines (steps : List PlanStep) : LineSet := Lines.ofFn fun l => steps.any fun st => st.lines.get l

/-- An accepted PLAN_SUBMIT starts its plan (R113). -/
def startPlan (owner : Master) (steps : List PlanStep) (s : State) : State :=
  let t := s.setPlan { s.plan with
    state := .running, owner := some owner, steps := steps, holdCause := none, abortCause := none }
  let t := evalPermits (beginLetGo (sendMarks (allLines steps) t))
  raise .plan .berth (makeCurrent 1 t)

/-- PLAN_SUBMIT at the Sequencer (R112, R113). A RELEASE that a line takes before the mark of the accepted plan leaves the plan to
hold at its issue check (R113, R115; `sendMarks`). -/
def planSubmit (sender : Sender) (steps : List PlanStepField) (s : State) : State × Reply :=
  if s.plan.state == .running || s.plan.state == .held then (s, ⟨.planBusy, .empty⟩)
  else if !(s.sup.call.phase == .moored || s.sup.call.phase == .lettingGo) then (s, ⟨.wrongState, .empty⟩)
  else if !s.plan.panelRampClear then (s, ⟨.rampDown, .empty⟩)
  else if s.plan.panelStop then (s, ⟨.stopped, .empty⟩)
  else
    match badStep s steps with
    | some n => (s, ⟨.badPlan, .step n⟩)
    | none => (startPlan (senderMaster sender) (steps.map planStepOf) s, ⟨.ok, .delays (steps.map usedDelay)⟩)

/-- PLAN_HOLD at the Sequencer (R121). -/
def planHold (s : State) : State × Reply :=
  match s.plan.state with
  | .running => (holdPlan .holdRequest s, ⟨.ok, .empty⟩)
  | .held => (s, ⟨.ok, .empty⟩)
  | .none => (s, ⟨.noPlan, .empty⟩)
  | .done => (s, ⟨.noPlan, .empty⟩)
  | .aborted => (s, ⟨.noPlan, .empty⟩)

/-- The plan ends ABORTED with a cause (R124); its hold cause is present only in HELD (R110). -/
def abortPlan (cause : AbortCause) (s : State) : State :=
  raise .plan .berth (clearMarks (s.setPlan { s.plan with
    state := .aborted, abortCause := some cause, holdCause := none, delayRunning := false, stepTimer := none }))

/-- PLAN_ABORT at the Sequencer (R124). -/
def planAbort (s : State) : State × Reply :=
  if s.plan.state == .running || s.plan.state == .held then (abortPlan .request s, ⟨.ok, .empty⟩)
  else (s, ⟨.noPlan, .empty⟩)

/-- TRIP_ALL at the Sequencer (R125). -/
def seqTripAll (s : State) : State :=
  if s.plan.state == .running || s.plan.state == .held then abortPlan .trip s else s

/-- The call has closed (R126). -/
def seqCallClosed (s : State) : State :=
  let p := s.plan
  raise .plan .berth (clearMarks (s.setPlan { p with
    state := .none, owner := none, steps := [], current := none, phase := none, delayRemaining := 0, delayRunning := false
    stepTimer := none, holdCause := none
    abortCause := if p.state == .running || p.state == .held then some .callClosed else none }))

/-- What PLAN_RESUME does with a line of the current step, by its state (R122). -/
inductive ResumeAction where
  | nothing | command | resume | refuse
deriving DecidableEq, Repr, Inhabited

/-- The table of R122. -/
def resumeAction : LineState → ResumeAction
  | .slackOut => .nothing
  | .rewinding => .nothing
  | .stowed => .nothing
  | .easing => .nothing
  | .unlatching => .nothing
  | .tripped => .nothing
  | .holding => .command
  | .rendering => .command
  | .recovering => .command
  | .halted => .resume
  | .disabled => .refuse
  | .adopting => .refuse
  | .attaching => .refuse
  | .tensioning => .refuse
  | .fault => .refuse

/-- A command that the Sequencer handed on is taken by its line, and the notice or the reply by the Sequencer: a RESUME may make
the line clear, and its notice may advance the step (R116, R118, R122). -/
def takeHanded (s : State) (h : Handed) : State :=
  let r := lcuHanded h s
  if h.command = .resume && r.2 = .ok then seqNotice h.line false r.1 else seqReply h.line r.2 r.1

/-- The RELEASEs and RESUMEs on their way, taken by their lines; a TRIP stays on its way. At channels that have been told of a STOP
each of them is refused (R72, R74, R116). -/
def takeStoppable (s : State) : State :=
  (s.handed.filter (·.command != .trip)).foldl takeHanded { s with handed := s.handed.filter (·.command == .trip) }

/-- The command that a resumed step gives one of its lines, by the line's state (R122). -/
def resumeCommand (mode : StepMode) (s : State) (l : Line) : Option Handed :=
  match resumeAction (s.stateOf l) with
  | .nothing => none
  | .refuse => none
  | .command => some ⟨l, mode.command⟩
  | .resume => some ⟨l, .resume⟩

/-- An accepted PLAN_RESUME (R122). The step timer starts before the lines' answers can reach the Sequencer. A change can reach
the LCU between the check of the lines and the commands (R116; `hand`). -/
def resumePlan (s : State) : State :=
  let t := s.setPlan { s.plan with state := .running, holdCause := none }
  raise .plan .berth
    (if s.plan.phase == some .delay && 0 < s.plan.delayRemaining then t.setPlan { t.plan with delayRunning := true }
     else if stepClear s then advanceStep t
     else
       match s.plan.currentStep with
       | none => t
       | some st =>
         hand takeHanded ((linesOf st.lines).filterMap (resumeCommand st.mode s))
           (t.setPlan { t.plan with phase := some .issued, stepTimer := some (stepLimitMs s) }))

/-- PLAN_RESUME at the Sequencer (R122). -/
def planResume (sender : Sender) (s : State) : State × Reply :=
  let p := s.plan
  if !(p.state == .running || p.state == .held) then (s, ⟨.noPlan, .empty⟩)
  else if p.owner != some (senderMaster sender) then (s, ⟨.notOwner, .empty⟩)
  else if p.state == .running then (s, ⟨.wrongState, .empty⟩)
  else if p.panelStop then (s, ⟨.stopped, .empty⟩)
  else if !p.panelRampClear then (s, ⟨.rampDown, .empty⟩)
  else if p.currentLines.anyB (fun l a => a && resumeAction (s.stateOf l) == .refuse) then (s, ⟨.wrongState, .empty⟩)
  else (resumePlan s, ⟨.ok, .empty⟩)

/-- The Sequencer's delay timer expires (R115). -/
def seqDelayExpiry (s : State) : State :=
  if s.plan.state == .running && s.plan.phase == some .delay && s.plan.delayRunning then issueCheck s else s

/-- The Sequencer's step timer expires (R117). -/
def seqStepTimeout (s : State) : State := if s.plan.stepTimer.isSome then holdPlan .stepTimeout s else s

/-- The panel levels of STOP and RAMP_CLEAR told to the Sequencer; a STOP activation holds a RUNNING plan (R123). -/
def seqPanel (stop rampClear stopActivation : Bool) (s : State) : State :=
  let t := s.setPlan { s.plan with panelStop := stop, panelRampClear := rampClear }
  if stopActivation then holdPlan .stop t else t

end Sys2Proof.Machine
end

