-- ==== Sys2Proof/Machine/ProfileApply.lean ====
section
/-! DEFINITION. The profile apply of the Profile Store, and what a whole change of line state is: the entry, then the notices
at the Let-Go Sequencer and the Profile Store (R60, R189). -/

namespace Sys2Proof.Machine

/-- A record's working copy is in use and its apply no longer pending (R189). -/
def ProfileStore.taken (r : RecordName) (st : ProfileStore) : ProfileStore :=
  { st with applyPending := st.applyPending.set r false }

/-- The Render Regulator takes a profile: A and its half (R96, R97). -/
def RegulatorChannel.applied (p : LineProfile) (c : RegulatorChannel) : RegulatorChannel :=
  { c with allowance := allowanceSteps p, half := allowanceSteps p / 2 }

/-- The Drum Counter takes a profile: new limits, the payout maximum passed on, and the reference lost with a new step size, which
a DISABLED line has none of (R45, R48, R49, R50). -/
def drumApplied (l : Line) (old new : LineProfile) (s : State) : State :=
  let t := setProfileLimits l new s
  let t := if old.stepUm = new.stepUm then t else t.setDrum l { t.drum.get l with referenced := false }
  softZoneTest l t

/-- The line's module starts a new count, and a transaction in flight for the line will not give a fresh status
(R148, R149, R152). -/
def DriveBus.staleFlight (l : Line) (b : DriveBus) : DriveBus :=
  { b with inFlight := b.inFlight.map fun f => if f.record.line = l then { f with fresh := false } else f }

/-- The Drive Bus Controller takes a profile (R148). -/
def busApplied (l : Line) (leavesDisabled : Bool) (s : State) : State :=
  let b := s.bus.staleFlight l
  s.setBus { b with
    modules := b.modules.set l ⟨0, .none⟩
    queue := if leavesDisabled then b.queue.filter fun r => r.line != l else b.queue }

/-- The LCU takes a profile: the working target, and the states that the enabled option leads to (R75, R95, R189). An entry into
DISABLED comes after it and sets the target to 0 (R95, log entry 40). The change of state is notified at the Sequencer
(R119). -/
def lcuApplied (l : Line) (p : LineProfile) (s : State) : State :=
  let c := s.lcu.get l
  let t := s.setLcu l { c with workingTarget := p.targetDefault }
  if c.state = .disabled then
    if p.enabled then seqNotice l false (enterPlain l .adopting t) else t
  else if p.enabled then t
  else seqNotice l false (enterPlain l .disabled t)

/-- A Line Profile is applied (R189). `atStow` says that the trigger is the line's entry into STOWED (R24). -/
def applyLine (l : Line) (atStow : Bool) (s : State) : State :=
  let old := s.profile l
  let new := lineProfileOf (s.store.stored.lines.get l).bytes
  let t := s.setStore { s.store.taken (.line l) with working := s.store.working.set l (some new) }
  let t := t.setLmu l ((t.lmu.get l).applied new atStow)
  let t := drumApplied l old new t
  let t := t.setReg l ((t.reg.get l).applied new)
  let t := busApplied l (!new.enabled) t
  let t := if t.repeater.selected = some l then recomputeUnit t else t
  raise .store (.line l) (lcuApplied l new t)

/-- The Berth Profile is applied (R189). -/
def applyBerth (s : State) : State :=
  let t := s.setStore { s.store.taken .berth with
    workingBerth := berthProfileOf s.store.stored.berth.bytes, berthDefaults := false }
  raise .store .berth (recomputeUnit t)

/-- A state-change notice at the Profile Store: a pending apply takes place at an entry into STOWED or FAULT (R189). -/
def storeNotice (l : Line) (s : State) : State :=
  if s.store.applyPending.lines.get l && (s.stateOf l == .stowed || s.stateOf l == .fault) then
    applyLine l (s.stateOf l == .stowed) s
  else s

/-- A whole change of a line's state: the entry with its notices, the Sequencer's notice, and the Profile Store's (R60). -/
def changeLine (l : Line) (new : LineState) (resume : Option Resume) (s : State) : State :=
  storeNotice l (seqNotice l false (enter l new resume none s))

/-- A fault notice at the LCU (R93). The Supervisor takes the state notice before the fault notice, so that a fault which opens the
adopted call is stamped with that call's time (R144, R197; log entry 60). -/
def fault (l : Line) (cause : FaultCause) (s : State) : State :=
  match s.stateOf l with
  | .disabled => s
  | .fault => supFault l cause (raise .fault (.line l) s)
  | _ =>
    let t := supFault l cause (raise .fault (.line l) (enter l .fault none (some cause) s))
    storeNotice l (seqNotice l false t)

end Sys2Proof.Machine
end

