-- ==== Sys2Proof/Machine/LineEvents.lean ====
section
/-! DEFINITION. What confirmations, samples, positions, statuses, timers, panel inputs and masters' commands do to a line
(chapters 4, 5 and 11). -/

namespace Sys2Proof.Machine

/-! ## Confirmed conditions (R84 to R86, R99, R103) -/

/-- The demanded render speed (R99, R100). -/
def renderDemand (p : LineProfile) (tF : Int) : Nat := p.kr * (tF - p.renderLimit).toNat / 16

/-- Target reached in TENSIONING: the line is locked where it stands (R83, R84). -/
def lockLine (l : Line) (s : State) : State :=
  clearInhibits l (s.setLcu l { s.lcu.get l with lockPosition := (s.drum.get l).position })

/-- A render confirmation taken in HOLDING: declined while inhibited, else the start check (R85, R99). -/
def takeRender (l : Line) (tF : Int) (s : State) : State :=
  if (s.lcu.get l).renderInhibited then s
  else if ((s.reg.get l).allowance : Int) ≤ netPayout s l then setRenderInhibit l true s
  else
    let p := s.profile l
    let t := s.setReg l { s.reg.get l with rendering := true, speed := clampNat p.vStop p.vMax (renderDemand p tF) }
    raise .render (.line l) (changeLine l .rendering none t)

/-- A slack confirmation taken in HOLDING: declined while inhibited, else the start check (R85, R103). -/
def takeSlack (l : Line) (s : State) : State :=
  if (s.lcu.get l).recoverInhibited then s
  else if netPayout s l ≤ -((s.reg.get l).allowance : Int) then setRecoverInhibit l true s
  else changeLine l .recovering none s

/-- A confirmation at the LCU, which names the state it was evaluated in (R34, R84, R85, R86). -/
def takeConfirmation (l : Line) (k : Condition) (evaluated : LineState) (tF : Int) (s : State) : State :=
  if s.stateOf l != evaluated then s
  else
    match k, evaluated with
    | .render, .holding => takeRender l tF s
    | .slack, .holding => takeSlack l s
    | .target, .tensioning => changeLine l .holding none (lockLine l s)
    | .target, .recovering => changeLine l .holding none s
    | .release, .easing => changeLine l .unlatching none s
    | .snag, .rewinding => raise .snag (.line l) (changeLine l .slackOut none s)
    | _, _ => s

/-- The five conditions. -/
def Condition.all : List Condition := [.render, .slack, .target, .release, .snag]

/-- The confirmations of a sample handed to the LCU (R34). -/
def takeConfirmations (l : Line) (evaluated : LineState) (tF : Int) (r : Conditions Confirmation) (s : State) : State :=
  Condition.all.foldl (fun u k => if r.get k = .none then u else takeConfirmation l k evaluated tF u) s

/-- A surge change of a sample handed on (R36, R38). -/
def surgeChanges (l : Line) (ends : Bool) (s : State) : State := if ends then surgeEnded l s else surgeStarted l s

/-- A sample at the Condition Detector: counters, the signal to the LMU, the overload notice, surge, and the confirmations
(R31 to R40). A surge change and a confirmation of one sample need no order between them, so the order is free
(R33, log entry 45). A deferred gate start falls before or after all of it (R8, log entry 8). -/
def detectorSample (l : Line) (m : Sample) (s : State) : State :=
  if m.kind = .unseeded || m.lost then s
  else
    let d := s.det.get l
    let r := d.sampled (s.profile l) (s.lcu.get l).workingTarget m
    let t := signalCounters l (s.setDet l r.1)
    let t := if r.2.1.render = .first then supOverload l m.tF t else t
    if !r.2.2 then takeConfirmations l d.stateView m.tF r.2.1 t
    else if (Condition.all.any fun k => r.2.1.get k != .none) && Config.choice t.choices then
      surgeChanges l d.surgeFlag (takeConfirmations l d.stateView m.tF r.2.1 t.drawn)
    else takeConfirmations l d.stateView m.tF r.2.1 (surgeChanges l d.surgeFlag t.drawn)

/-! ## Render regulation (R100, R101) -/

/-- V_new of a regulated sample (R100). -/
def regulatedSpeed (p : LineProfile) (v : Nat) (tF : Int) : Nat :=
  let dec := max 1 (ceilDiv (p.f + p.d * v / 4096) p.i)
  min p.vMax (max (v - dec) (renderDemand p tF))

/-- V set while a render runs; in RENDERING the intent follows it (R63, R100). -/
def setSpeed (l : Line) (v : Nat) (s : State) : State :=
  let t := s.setReg l { s.reg.get l with speed := v }
  if t.stateOf l = .rendering then refreshIntent l false t else t

/-- The render record removed and RENDER raised (R101, R105). -/
def endRender (l : Line) (s : State) : State :=
  raise .render (.line l) (s.setReg l { s.reg.get l with rendering := false, speed := 0 })

/-- A sample at the Render Regulator (R100, R101). -/
def regulatorSample (l : Line) (m : Sample) (s : State) : State :=
  let r := s.reg.get l
  if m.kind = .unseeded || m.lost || !r.rendering || m.state != .rendering then s
  else
    let p := s.profile l
    let v := regulatedSpeed p r.speed m.tF
    if p.vStop ≤ v then setSpeed l v s
    else if (exitThreshold p.renderLimit p.renderHyst : Int) < m.tF then setSpeed l p.vStop s
    else
      let t := endRender l s
      if t.stateOf l = .rendering then changeLine l .holding none t else t

/-! ## Position changes at the Render Regulator (R105 to R107) -/

/-- The allowance is reached in the direction the line runs (R105). -/
def allowanceReached (s : State) (l : Line) : Bool :=
  let r := s.reg.get l
  match r.stateView with
  | .rendering => r.rendering && decide ((r.allowance : Int) ≤ netPayout s l)
  | .recovering => decide (netPayout s l ≤ -(r.allowance : Int))
  | _ => false

/-- The payout maximum is passed by an increase of the position (R107). -/
def payoutPassed (s : State) (l : Line) (increased : Bool) : Bool :=
  let p := (s.reg.get l).payoutMax
  increased && (s.drum.get l).referenced && p != 0 && decide ((p : Int) < (s.drum.get l).position)

/-- Net payout lies within half the allowance (R106). -/
def withinHalf (s : State) (l : Line) : Bool :=
  s.stateOf l != .disabled && decide ((netPayout s l).natAbs ≤ (s.reg.get l).half)

/-- The cut-off of a render, marked by the payout maximum or not (R105, R107). -/
def renderCutOff (l : Line) (payout : Bool) (s : State) : State :=
  let t := endRender l s
  if t.stateOf l = .rendering then
    let u := setRenderInhibit l true (changeLine l .holding none t)
    if payout then raise .payoutEnd (.line l) u else u
  else t

/-- An ease ends back in HOLDING, with the EASE_FAILED handed to the Sequencer (R65, R107, R119). -/
def easeFails (l : Line) (s : State) : State :=
  seqNotice l true (raise .easeFailed (.line l) (enterPlain l .holding s))

/-- The cut-off or payout notice that a position change gives rise to (R105, R107). -/
def cutOff (l : Line) (allowance payout : Bool) (s : State) : State :=
  let r := s.reg.get l
  match r.stateView with
  | .rendering => if r.rendering && (allowance || payout) then renderCutOff l payout s else s
  | .recovering =>
    if allowance && s.stateOf l == .recovering then setRecoverInhibit l true (changeLine l .holding none s) else s
  | .attaching =>
    if payout && s.stateOf l == .attaching then
      raise .payoutEnd (.line l) (changeLine l .halted (some .attaching) s)
    else s
  | .easing => if payout && s.stateOf l == .easing then raise .payoutEnd (.line l) (easeFails l s) else s
  | _ => s

/-- A change of position at the Render Regulator. Where both a cut-off and a return within half the allowance are met, either
may be taken first (R105, R106; log entry 12). -/
def regulatorPosition (l : Line) (increased : Bool) (s : State) : State :=
  let allowance := allowanceReached s l
  let payout := payoutPassed s l increased
  let within := withinHalf s l
  if (allowance || payout) && within then
    if Config.choice s.choices then clearInhibits l (cutOff l allowance payout s.drawn)
    else cutOff l allowance payout (clearInhibits l s.drawn)
  else if within then clearInhibits l s
  else cutOff l allowance payout s

/-! ## Adoption (R194, R195) -/

/-- The derivation of an ADOPTING line from its latest fresh status (R195). -/
def derive (l : Line) (r : SensedStatus) (s : State) : State :=
  if r.faultCode != 0#8 then fault l .driveFault s
  else
    match r.latch with
    | .closed => changeLine l .holding none (s.setLcu l { s.lcu.get l with lockPosition := 0 })
    | .opened => if r.stow then changeLine l .stowed none s else changeLine l .slackOut none s
    | .moving =>
      let c := s.lcu.get l
      s.setLcu l { c with timer := some (c.timer.getD ⟨.latch, limitMs (s.profile l).latchLimit⟩) }

/-- A sample at the LCU: the fresh good sample of an ADOPTING line (R194), or SENSOR_LOST (R19). -/
def lcuSample (l : Line) (m : Sample) (s : State) : State :=
  if m.lost then fault l .sensorLost s
  else
    let c := s.lcu.get l
    if c.state = .adopting && m.kind = .good && !c.freshSample then
      let t := s.setLcu l { c with freshSample := true }
      match c.freshStatus with
      | none => t
      | some r => derive l r t
    else s

/-! ## Sensed status (R78 to R82) -/

/-- The latch test of a report: the state after it, and whether it took the line to FAULT (R80, R81). -/
def latchTest (l : Line) (r : SensedStatus) (s : State) : State × Bool :=
  let c := s.lcu.get l
  match r.latch with
  | .moving => (s, false)
  | .closed =>
    match c.state with
    | .attaching => (changeLine l .tensioning none s, false)
    | .halted => if c.resume = some .attaching then (changeResume l .tensioning s, false) else (s, false)
    | .rewinding => (raise .snag (.line l) (changeLine l .slackOut none s), false)
    | _ => (s, false)
  | .opened =>
    match c.state with
    | .unlatching =>
      if (s.profile l).autoRewind then
        if c.panel.stop then (changeLine l .halted (some .rewinding) s, false) else (changeLine l .rewinding none s, false)
      else (changeLine l .slackOut none s, false)
    | .tripped => (changeLine l .slackOut none s, false)
    | .holding => (fault l .latchLost s, true)
    | .rendering => (fault l .latchLost s, true)
    | .recovering => (fault l .latchLost s, true)
    | .tensioning => (fault l .latchLost s, true)
    | .easing => (fault l .latchLost s, true)
    | .halted =>
      if c.resume = some .tensioning || c.resume = some .easing then (fault l .latchLost s, true) else (s, false)
    | _ => (s, false)

/-- The stow mark test of a report (R82). -/
def stowTest (l : Line) (r : SensedStatus) (s : State) : State :=
  let c := s.lcu.get l
  if r.stow && (c.state == .rewinding || c.state == .slackOut || (c.state == .halted && c.resume == some .rewinding)) then
    changeLine l .stowed none s
  else s

/-- A fault code counts anew: not 0, and not the code of the report before (R79). -/
def newFaultCode (previous : Option SensedStatus) (r : SensedStatus) : Bool :=
  r.faultCode != 0#8 && match previous with | none => true | some q => q.faultCode != r.faultCode

/-- The tests of a report in a state that is neither DISABLED nor ADOPTING (R78 to R82, R63, R94). -/
def statusTests (l : Line) (previous : Option SensedStatus) (r : SensedStatus) (s : State) : State :=
  if s.stateOf l = .fault then
    let t := if newFaultCode previous r then fault l .driveFault s else s
    if previous.map (·.latch) = some r.latch then t else renotify l t
  else if newFaultCode previous r then fault l .driveFault s
  else
    let t := latchTest l r s
    if t.2 then t.1 else stowTest l r t.1

/-- A completed STATUS at the LCU (R78, R194). -/
def lcuStatus (l : Line) (r : SensedStatus) (fresh : Bool) (s : State) : State :=
  let c := s.lcu.get l
  let t := s.setLcu l { c with lastStatus := some r }
  match c.state with
  | .disabled => t
  | .adopting =>
    if fresh then
      let u := t.setLcu l { t.lcu.get l with freshStatus := some r }
      if c.freshSample then derive l r u else u
    else t
  | _ => statusTests l c.lastStatus r t

/-! ## State timers (R65, R66, R195) -/

/-- A running state timer of the kind given. -/
def timerRuns (s : State) (l : Line) (k : TimerKind) : Bool := (s.lcu.get l).timer.any fun t => t.kind == k

/-- The attach timer expires (R65). -/
def attachExpires (l : Line) (s : State) : State :=
  if s.stateOf l = .attaching && timerRuns s l .attach then
    raise .attachExpired (.line l) (changeLine l .rewinding none s)
  else s

/-- The ease timer expires (R65). -/
def easeExpires (l : Line) (s : State) : State :=
  if s.stateOf l = .easing && timerRuns s l .ease then easeFails l s else s

/-- The tension timer expires (R66). -/
def tensionExpires (l : Line) (s : State) : State :=
  if s.stateOf l = .tensioning && timerRuns s l .tension then fault l .tensionTimeout s else s

/-- The latch timer expires in UNLATCHING or TRIPPED (R66). -/
def latchExpires (l : Line) (s : State) : State :=
  if (s.stateOf l = .unlatching || s.stateOf l = .tripped) && timerRuns s l .latch then fault l .latchStuck s else s

/-- The rewind timer expires (R66). -/
def rewindExpires (l : Line) (s : State) : State :=
  if s.stateOf l = .rewinding && timerRuns s l .rewind then fault l .rewindTimeout s else s

/-- The latch timer of an ADOPTING line expires (R195). -/
def adoptionExpires (l : Line) (s : State) : State :=
  if s.stateOf l = .adopting && timerRuns s l .latch then fault l .latchStuck s else s

/-! ## Masters' line commands (R68 to R77, R90, R108, R109) -/

/-- A reply that carries a code alone. -/
def plain (code : ReplyCode) : Reply := ⟨code, .empty⟩

/-- ATTACH at the LCU, the plan mark apart (R70). -/
def lcuAttach (l : Line) (s : State) : State × Reply :=
  let c := s.lcu.get l
  if !(s.sup.call.isOpen && s.sup.call.assigned.get l) then (s, plain .notAssigned)
  else if c.panel.stop then (s, plain .stopped)
  else if c.panel.trip then (s, plain .tripActive)
  else if c.state = .stowed || c.state = .slackOut then (changeLine l .attaching none s, plain .ok)
  else (s, plain .wrongState)

/-- CANCEL at the LCU, the plan mark apart (R71). -/
def lcuCancel (l : Line) (s : State) : State × Reply :=
  let c := s.lcu.get l
  if c.state = .attaching && !c.panel.stop then (changeLine l .rewinding none s, plain .ok)
  else if c.state = .halted && c.resume = some .attaching then
    if c.panel.stop then (changeResume l .rewinding s, plain .ok) else (changeLine l .rewinding none s, plain .ok)
  else (s, plain .wrongState)

/-- REWIND at the LCU, the plan mark apart (R73). -/
def lcuRewind (l : Line) (s : State) : State × Reply :=
  let c := s.lcu.get l
  if c.panel.stop then (s, plain .stopped)
  else if c.state = .slackOut then (changeLine l .rewinding none s, plain .ok)
  else (s, plain .wrongState)

/-- SET_TARGET at the LCU, the plan mark apart (R108). -/
def lcuSetTarget (l : Line) (tension : Nat) (s : State) : State × Reply :=
  let p := s.profile l
  let used := clampNat p.targetMin p.targetMax tension
  (s.setLcu l { s.lcu.get l with workingTarget := used }, ⟨.ok, .target used⟩)

/-- REBASE at the LCU, the plan mark apart (R109). -/
def lcuRebase (l : Line) (s : State) : State × Reply :=
  if latched (s.stateOf l) then (lockLine l s, plain .ok) else (s, plain .wrongState)

/-- ZERO at the LCU, the plan mark apart (R76). -/
def lcuZero (l : Line) (s : State) : State × Reply :=
  if s.stateOf l = .stowed then (startCapture l s, plain .ok) else (s, plain .wrongState)

/-- CLEAR_FAULT at the LCU, the plan mark apart (R44, R77, R149). -/
def lcuClearFault (l : Line) (s : State) : State × Reply :=
  if s.stateOf l = .fault then
    let t := s.setDrum l { s.drum.get l with errorCount := 0 }
    let b := t.bus.staleFlight l
    let t := t.setBus { b with modules := b.modules.set l { b.modules.get l with failures := 0 } }
    (changeLine l .adopting none t, plain .ok)
  else (s, plain .wrongState)

/-- A line command from a master at the LCU channel of its line: first the plan mark, except for TRIP (R69), then the
command's own checks (R68). -/
def lineCommand (l : Line) (cmd : LineCommand) (s : State) : State × Reply :=
  match cmd with
  | .trip => let r := lcuTrip l s; (r.1, plain r.2)
  | .attach => if (s.lcu.get l).planMark then (s, plain .lineInPlan) else lcuAttach l s
  | .cancel => if (s.lcu.get l).planMark then (s, plain .lineInPlan) else lcuCancel l s
  | .release =>
    if (s.lcu.get l).planMark then (s, plain .lineInPlan) else let r := lcuRelease l s; (r.1, plain r.2)
  | .rewind => if (s.lcu.get l).planMark then (s, plain .lineInPlan) else lcuRewind l s
  | .resume =>
    if (s.lcu.get l).planMark then (s, plain .lineInPlan)
    else let r := lcuResume l s; (if r.2 = .ok then seqNotice l false r.1 else r.1, plain r.2)
  | .setTarget tension => if (s.lcu.get l).planMark then (s, plain .lineInPlan) else lcuSetTarget l tension.toNat s
  | .rebase => if (s.lcu.get l).planMark then (s, plain .lineInPlan) else lcuRebase l s
  | .zero => if (s.lcu.get l).planMark then (s, plain .lineInPlan) else lcuZero l s
  | .clearFault => if (s.lcu.get l).planMark then (s, plain .lineInPlan) else lcuClearFault l s

/-! ## TRIP_ALL and STOP (R88, R91) -/

/-- The lines that a TRIP_ALL takes to TRIPPED (R90, R91): one that is ATTACHING at a TRIP activation too (R141, log entry 55). -/
def trippedBy (s : State) : List Line := Line.all.filter fun l => !untrippable (s.stateOf l) && s.stateOf l != .tripped

/-- TRIP_ALL at the LCU channels, in a free order (R91). -/
def tripLines (s : State) : State := inFreeOrder (fun u l => (lcuTrip l u).1) (trippedBy s) s

/-- TRIP_ALL at the Sequencer and the LCU channels (R91, R125). Until adoption is complete the Supervisor settles the call once
every channel has taken the TRIP_ALL, since no line that it trips is in the adopted call (R196, log entry 49). -/
def tripAll (s : State) : State :=
  let t := seqTripAll s
  if t.sup.adoptionComplete then tripLines t
  else
    evalPermits (settleAdoption (setAdoption false (tripLines (setAdoption true t))))

/-- The resume state with which a STOP activation halts a state (R88). -/
def haltResume : LineState → Option Resume
  | .attaching => some .attaching
  | .tensioning => some .tensioning
  | .easing => some .easing
  | .rewinding => some .rewinding
  | _ => none

/-- A STOP activation at the LCU channels, in a free order (R88). -/
def haltLines (s : State) : State :=
  inFreeOrder (fun u l => changeLine l .halted (haltResume (u.stateOf l)) u)
    (Line.all.filter fun l => (haltResume (s.stateOf l)).isSome) s

end Sys2Proof.Machine
end

