-- ==== Sys2Proof/Machine/Sampling.lean ====
section
/-! DEFINITION. The delivery of a completed sample, the encoder inputs, and the transactions of the Drive Bus
(R17, R43, R44, R147 to R160). -/

namespace Sys2Proof.Machine

/-! ## Samples (R3, R4, R8, R17) -/

/-- Who takes a completed sample (R17), and the gate start that a deferred start owes at the completion (R5, R8). -/
inductive Recipient where
  | detector | regulator | lcu | bus | own | drum | gate
deriving DecidableEq, Repr, Inhabited

/-- The recipients of a sample. -/
def Recipient.all : List Recipient := [.detector, .regulator, .lcu, .bus, .own, .drum, .gate]

/-- One recipient takes a sample. -/
def takeSample (l : Line) (m : Sample) (s : State) : Recipient → State
  | .detector => detectorSample l m s
  | .regulator => regulatorSample l m s
  | .lcu => lcuSample l m s
  | .bus => queueStatus l s
  | .own => ownDelivery l m s
  | .drum => drumSample l s
  | .gate => if (s.lmu.get l).deferred then gateStart l s else s

/-- A sample delivered to its recipients in an order. -/
def deliverIn (order : List Recipient) (l : Line) (m : Sample) (s : State) : State := order.foldl (takeSample l m) s

/-- A sample delivered (R17): its recipients need no order among them, so the order is free (log entry 8). A SENSOR_LOST sample
of a STOWED line under a zero capture shows it: whether ZERO_ERROR is raised is free (log entry 56). So does one of a line that a pending apply
then takes to DISABLED: whether its poll is removed with the line's records or queued after them is free (log entry 59). -/
def deliver (l : Line) (m : Sample) (s : State) : State :=
  deliverIn (permute (Config.order s.choices) Recipient.all) l m s.drawn

/-- A gate completes with a count of ticks (R3). -/
def completeGood (l : Line) (ticks : Nat) (s : State) : State :=
  let r := (s.lmu.get l).goodSample (s.profile l) ticks
  deliver l r.2 (s.setLmu l r.1)

/-- A gate ends as a NO_SIGNAL sample (R4, R18). -/
def completeNoSignal (l : Line) (s : State) : State :=
  let r := (s.lmu.get l).noSignal (s.profile l)
  deliver l r.2 (s.setLmu l r.1)

/-- The sample timer expires: a gate starts, or its start is deferred (R5). -/
def sampleBoundary (l : Line) (s : State) : State :=
  let c := s.lmu.get l
  if c.sampleTimer.isNone then s
  else if c.gate = .idle then gateStart l s
  else s.setLmu l { c with sampleTimer := none, deferred := true }

/-- The hold timer expires (R16). -/
def holdExpires (l : Line) (s : State) : State :=
  if (s.lmu.get l).holdTimer.isNone then s else raise .refReseed (.line l) (reseed l s)

/-! ## Drum encoder (R43, R44, R46) -/

/-- A change of position handed on: the repeater, the soft zone test and the Render Regulator (R46, R47). They hold separate
state, and their order does not show (log entry 14). -/
def handPosition (l : Line) (step increased : Bool) (s : State) : State :=
  let t := if step then repeaterStep l s else repeaterMoved l s
  regulatorPosition l increased (softZoneTest l t)

/-- A position held within its 32 bits (R43). -/
def saturate (x : Int) : Int := clampInt (-2147483648) 2147483647 x

/-- A legal change: a step in a direction (R43). -/
def legalStep (l : Line) (q : Quad) (delta : Int) (s : State) : State :=
  let d := s.drum.get l
  let position := saturate (d.position + delta)
  handPosition l true (decide (d.position < position))
    (s.setDrum l { d with
      decoder := q, position := position, stepAcc := d.stepAcc + delta, stationaryTimer := some 1000
      stationary := false })

/-- An illegal change: an encoder error, the sixteenth of which loses the reference and faults the line (R44). The repeater's
band goes absent with the reference (R48, R55; log entry 53). -/
def illegalChange (l : Line) (q : Quad) (s : State) : State :=
  let d := s.drum.get l
  let t := s.setDrum l { d with
    decoder := q, errorCount := satInc 255 d.errorCount, stationaryTimer := some 1000, stationary := false
    referenced := d.referenced && d.errorCount != 15 }
  if d.errorCount = 15 then fault l .encoder (repeaterMoved l (softZoneTest l t)) else t

/-- The level pair of a line's encoder inputs changes (R43, R44, R45). -/
def decodePair (l : Line) (q : Quad) (s : State) : State :=
  let d := s.drum.get l
  if s.stateOf l = .disabled then s.setDrum l { d with decoder := q }
  else if q = d.decoder then s
  else if q = d.decoder.next then legalStep l q 1 s
  else if q = d.decoder.prev then legalStep l q (-1) s
  else illegalChange l q s

/-- The stationary timer expires (R52, R58). -/
def stationaryExpires (l : Line) (s : State) : State :=
  let d := s.drum.get l
  if d.stationaryTimer.isNone then s
  else
    let t := s.setDrum l { d with stationaryTimer := none, stationary := true }
    if t.repeater.selected = some l && t.store.workingBerth.discard then
      t.setRepeater { t.repeater with pendingCount := 0 }
    else t

/-- A SELECT_REPEATER taken by the repeater (R54). -/
def selectLine (sel : Option Line) (s : State) : State :=
  recomputeUnit (s.setRepeater { s.repeater with selected := sel, pendingCount := 0 })

/-! ## Drive Bus (R147 to R160) -/

/-- A completed STATUS at the Drum Counter: a stow mark references the position (R47). -/
def drumStatus (l : Line) (r : SensedStatus) (s : State) : State :=
  let d := s.drum.get l
  if !r.stow || s.stateOf l == .disabled || (d.position == 0 && d.referenced) then s
  else handPosition l false false (s.setDrum l { d with position := 0, referenced := true })

/-- The head of the queue goes on the bus at its module's address. Its start condition needs both lines high, so the stuck timer
starts (R148, R156, R157). -/
def startTransaction (s : State) : State :=
  match s.bus.activity, s.bus.queue with
  | .idle, r :: rest =>
    s.setBus { s.bus with
      queue := rest
      inFlight := some ⟨r, (s.profile r.line).driveAddress, .start, busBuffer r.kind, true⟩
      activity := .transaction
      stuckTimer := some 25 }
  | _, _ => s

/-- No transaction in flight, and the activity that follows it. -/
def DriveBus.released (next : BusActivity) (b : DriveBus) : DriveBus :=
  { b with inFlight := none, activity := next, stuckTimer := none }

/-- A success of a transaction for a line (R158). -/
def DriveBus.succeeded (l : Line) (b : DriveBus) : DriveBus :=
  { b with modules := b.modules.set l { b.modules.get l with failures := 0 } }

/-- A failure of a transaction for a line (R158). -/
def DriveBus.failed (l : Line) (phase : FailurePhase) (b : DriveBus) : DriveBus :=
  { b with modules := b.modules.set l ⟨satInc 255 (b.modules.get l).failures, phase⟩ }

/-- A failed COMMAND put back or dropped (R160). -/
def requeue (r : BusRecord) (failures : Nat) (q : List BusRecord) : List BusRecord :=
  if q.any (·.isCommand r.line) then q
  else if 3 ≤ failures then q ++ [{ r with urgent := false }]
  else if r.urgent then r :: q
  else behindUrgent r q

/-- A COMMAND transaction completes (R150). -/
def completeCommand (s : State) : State :=
  match s.bus.inFlight with
  | some ⟨⟨l, .command _, _⟩, _, _, _, _⟩ => s.setBus ((s.bus.succeeded l).released .idle)
  | _ => s

/-- The Drum Counter and the LCU take a completed STATUS; either may be first (R47, R152; log entry 10). -/
def takeStatus (l : Line) (r : SensedStatus) (fresh : Bool) (s : State) : State :=
  if r.stow then
    if Config.choice s.choices then lcuStatus l r fresh (drumStatus l r s.drawn)
    else drumStatus l r (lcuStatus l r fresh s.drawn)
  else lcuStatus l r fresh s

/-- The phases of a transaction in their order (R150, R151). -/
def RecordKind.phases : RecordKind → List BusPhase
  | .command _ => [.start, .address, .index, .data, .stop]
  | .status => [.start, .address, .index, .repeatedStart, .readAddress, .data, .stop]

/-- The phases that a transaction has not gone past: the one it has reached and those after it. -/
def InFlight.ahead (f : InFlight) : List BusPhase := f.record.kind.phases.dropWhile (· != f.phase)

/-- The bytes of a STATUS that are in its buffer, behind the index (R147). -/
def InFlight.received (f : InFlight) : List Byte := (f.buffer.drop 1).take 6

/-- The bytes of a STATUS that had not arrived yet are behind those in its buffer, and the stop condition is sent (R147, R151;
log entry 21). -/
def InFlight.arrived (b : StatusBytes) (f : InFlight) : InFlight :=
  let six := [b.brake, b.latch, b.stow, b.drive, b.faultCode, b.sequence]
  { f with phase := .stop, buffer := busBuffer .status ++ f.received ++ six.drop f.received.length }

/-- A STATUS transaction completes: the six bytes in its buffer are decoded (R151, R152). -/
def completeStatus (bytes : StatusBytes) (s : State) : State :=
  match s.bus.inFlight with
  | some ⟨⟨l, .status, urgent⟩, address, phase, buffer, fresh⟩ =>
    let f := InFlight.arrived bytes ⟨⟨l, .status, urgent⟩, address, phase, buffer, fresh⟩
    takeStatus l (decodeStatus (statusBytesOf f.buffer)) f.fresh (s.setBus ((s.bus.succeeded l).released .idle))
  | _ => s

/-- The transaction in flight fails (R158, R159, R160). The record is put back before the LCU takes DRIVE_LOST, whose COMMAND
then replaces it; the other order gives the same queue (log entry 34). -/
def failTransaction (phase : FailurePhase) (next : BusActivity) (s : State) : State :=
  match s.bus.inFlight with
  | none => s
  | some f =>
    let l := f.record.line
    let before := (s.bus.modules.get l).failures
    let b := (s.bus.failed l phase).released next
    let q := match f.record.kind with
      | .command _ => requeue f.record (b.modules.get l).failures b.queue
      | .status => b.queue
    let t := s.setBus { b with queue := q }
    if before = 2 then fault l .driveLost t else t

/-- The failure phase of a missing acknowledge (R150, R151). -/
def phaseOf : NoAck → FailurePhase
  | .absent => .absent
  | .indexRefused => .indexRefused
  | .dataRefused => .dataRefused

/-- The phases of a transaction in which a byte can go without an acknowledge so. A STATUS has two address bytes, and no byte of
its data phase can be refused (R150, R151). -/
def refusablePhases : NoAck → RecordKind → List BusPhase
  | .absent, .command _ => [.address]
  | .absent, .status => [.address, .readAddress]
  | .indexRefused, _ => [.index]
  | .dataRefused, .command _ => [.data]
  | .dataRefused, .status => []

/-- The transaction in flight can fail so: it has not gone past every phase in which that acknowledge can be missing (R150, R151;
log entries 2, 21). -/
def canFail (why : NoAck) (s : State) : Bool :=
  match s.bus.inFlight with
  | none => false
  | some f => f.ahead.any (refusablePhases why f.record.kind).contains

end Sys2Proof.Machine
end

