-- ==== Sys2Proof/Machine/Berth.lean ====
section
/-! DEFINITION. The Berth Supervisor's requests and panel inputs (chapter 7). -/

namespace Sys2Proof.Machine

/-! ## Opening, binding and closing a call (R130 to R133) -/

/-- The captures cleared (R130, R142, R145). -/
def clearCaptures (s : State) : State :=
  clearPeaks (s.setSup { s.sup with firstOverload := none, firstFault := none, overloadCount := 0, faultCount := 0 })

/-- The next call number: 65535 wraps to 0 (R128, R130). -/
def nextNumber (n : Nat) : Nat := if n = 65535 then 0 else n + 1

/-- BIND opens an IDLE call (R130). -/
def openCall (code : Half) (lines : LineSet) (s : State) : State :=
  let t := s.setSup { s.sup with call := { s.sup.call with
    phase := .arriving, vesselCode := some code, assigned := lines, number := nextNumber s.sup.call.number, timeMs := 0
    surgeCount := 0, madeFastTime := none } }
  raise .call .berth (evalPermits (advancePhase (tellAssignment (clearCaptures t))))

/-- BIND binds an adopted call: requested lines in STOWED or SLACK_OUT are added (R131). -/
def bindAdopted (code : Half) (lines : LineSet) (s : State) : State :=
  let c := s.sup.call
  let assigned : LineSet := Lines.ofFn fun l =>
    let st := (s.sup.view.get l).state
    c.assigned.get l || (lines.get l && (st == .stowed || st == .slackOut))
  let t := s.setSup { s.sup with call := { c with
    vesselCode := some code, assigned := assigned, number := nextNumber c.number } }
  raise .call .berth (evalPermits (tellAssignment t))

/-- The reply of an accepted BIND (R130, R131). -/
def callReply (s : State) : Reply := ⟨.ok, .call s.sup.call.number s.sup.call.assigned⟩

/-- BIND at the Supervisor (R130, R131). -/
def bindCall (code : Half) (lines : LineSet) (s : State) : State × Reply :=
  if !s.sup.adoptionComplete then (s, plain .wrongState)
  else if code == 0#16 || !lines.anyB (fun _ a => a) then (s, plain .badFrame)
  else if lines.anyB (fun l a => a && s.stateOf l == .disabled) then (s, plain .lineDisabled)
  else if s.sup.call.isBound then (s, plain .callOpen)
  else
    let t := if s.sup.call.phase = .idle then openCall code lines s else bindAdopted code lines s
    (t, callReply t)

/-- Every working target returns to its default (R75, R133); a line without a working copy has the default 0 (log entry 27). -/
def resetTargets (s : State) : State :=
  { s with lcu := s.lcu.imap fun l c => { c with workingTarget := (s.profile l).targetDefault } }

/-- The vessel code and the time that a close by a master leaves: a CLOSE_CALL of a bound call can have come to the Supervisor
before an ATTACH of that vessel which its port had let through; the vessel's own port takes its requests one after the other
(R133, log entry 50). -/
def closedBy (m : Master) (s : State) : Option (Half × Nat) :=
  match m with
  | .shore => if s.sup.call.isBound then s.sup.call.vesselCode.map (·, s.now) else none
  | .vessel => none

/-- The call is closed by a master (R133, R126, R189). -/
def closeCall (m : Master) (s : State) : State :=
  let t := s.setSup { s.sup with
    call := { s.sup.call with phase := .idle, vesselCode := none, assigned := Lines.const false }, closeChecked := none
    closedCall := closedBy m s }
  let t := raise .call .berth (evalPermits (tellAssignment (seqCallClosed (resetTargets t))))
  if t.store.applyPending.berth then applyBerth t else t

/-- A close of this master may have been checked before an ATTACH of the other one that reached the part together with it
(R133, log entry 50). -/
def checkedBefore (m : Master) (s : State) : Bool :=
  match s.sup.closeChecked with
  | some (other, time) => other != m && time == s.now
  | none => false

/-- A close of an open call: closed where the Depart condition holds, or held when the close was checked, before an ATTACH that
was taken first; whether it was checked before is free (R133, log entry 50). -/
def closeIfClear (m : Master) (s : State) : State × Reply :=
  if departCondition s.sup then (closeCall m s, plain .ok)
  else if checkedBefore m s then
    if Config.choice s.choices then (closeCall m s.drawn, plain .ok) else (s.drawn, plain .callNotClear)
  else (s, plain .callNotClear)

/-- UNBIND at the Supervisor (R133). -/
def unbindCall (s : State) : State × Reply :=
  if !s.sup.call.isOpen then (s, plain .notBound) else closeIfClear .vessel s

/-- CLOSE_CALL at the Supervisor (R133). -/
def closeByShore (s : State) : State × Reply :=
  if !s.sup.call.isOpen then (s, plain .wrongState) else closeIfClear .shore s

/-- What an ATTACH leaves for a close that reached the part together with it: that the Depart condition held before the line
went out (R133, log entry 50). -/
def attachTaken (sender : Sender) (before : State) (r : State × Reply) : State × Reply :=
  if r.2.code = .ok && departCondition before.sup then
    (r.1.setSup { r.1.sup with closeChecked := some (senderMaster sender, before.now) }, r.2)
  else r

/-! ## Panel inputs (R87, R139 to R141) -/

/-- A panel input of the Supervisor. -/
def panelGet (u : Supervisor) : PanelInput → PanelLevel
  | .trip => u.trip
  | .stop => u.stop
  | .rampClear => u.rampClear

/-- A panel input changed. -/
def panelSet (u : Supervisor) (p : PanelLevel) : PanelInput → Supervisor
  | .trip => { u with trip := p }
  | .stop => { u with stop := p }
  | .rampClear => { u with rampClear := p }

/-- The raw level of a panel input. -/
def rawLevel (p : Pins) : PanelInput → Bool
  | .trip => p.trip
  | .stop => p.stop
  | .rampClear => p.rampClear

/-- The raw level of a panel input changed. -/
def setRaw (p : Pins) (v : Bool) : PanelInput → Pins
  | .trip => { p with trip := v }
  | .stop => { p with stop := v }
  | .rampClear => { p with rampClear := v }

/-- Every LCU channel told the three levels (R87). -/
def tellPanel (s : State) : State :=
  let v : PanelView := ⟨s.sup.stop.level, s.sup.trip.level, s.sup.rampClear.level⟩
  { s with lcu := s.lcu.imap fun _ c => { c with panel := v } }

/-- A STOP activation at the LCU channels and the Sequencer (R88, R123). With commands of the Sequencer on their way, the Sequencer
may take it after the channels, and after the replies of those that refuse (R116; a free choice, log entry 57). -/
def stopActivated (s : State) : State :=
  let tell := seqPanel s.sup.stop.level s.sup.rampClear.level true
  if !s.handed.isEmpty && Config.choice s.choices then tell (takeStoppable (haltLines s.drawn)) else haltLines (tell s)

/-- A debounced change of an input (R140, R141). Every LCU channel and the Sequencer have taken it when the next command comes
(log entry 57). -/
def panelChanged (input : PanelInput) (active : Bool) (s : State) : State :=
  let t := tellPanel s
  match input with
  | .stop =>
    let u := if active then stopActivated t else seqPanel t.sup.stop.level t.sup.rampClear.level false t
    raise .stop .berth (evalPermits u)
  | .rampClear => evalPermits (seqPanel t.sup.stop.level t.sup.rampClear.level false t)
  | .trip => raise .trip .berth (evalPermits (if active then tripAll t else t))

/-- The raw level of an input changes: its stability timer restarts (R139). -/
def panelRaw (input : PanelInput) (level : Bool) (s : State) : State :=
  if rawLevel s.pins input = level then s
  else
    let t := s.setPins (setRaw s.pins level input)
    t.setSup (panelSet t.sup { panelGet t.sup input with timer := some 20 } input)

/-- The stability timer of an input expires (R139). -/
def panelSettles (input : PanelInput) (s : State) : State :=
  let p := panelGet s.sup input
  let raw := rawLevel s.pins input
  if p.timer.isNone then s
  else
    let t := s.setSup (panelSet s.sup ⟨raw, none⟩ input)
    if raw = p.level then t else panelChanged input raw t

end Sys2Proof.Machine
end

