-- ==== Sys2Proof/Machine/Profiles.lean ====
section
/-! DEFINITION. The profile requests and the ends of programming at the Profile Store (chapter 10). -/

namespace Sys2Proof.Machine

/-- A programming operation is in flight (R184). -/
def ProfileStore.busy (st : ProfileStore) : Bool := st.programming != .none

/-- A record is under a session or commissioning lock (R188). -/
def ProfileStore.locked (st : ProfileStore) (r : RecordName) : Bool := st.sessionLock.get r || st.commissioned.get r

/-- A record may be written, or applied at once: the line in STOWED, DISABLED or FAULT, or no call open (R188, R189). -/
def recordFree (s : State) : RecordName → Bool
  | .line l => s.stateOf l == .stowed || s.stateOf l == .disabled || s.stateOf l == .fault
  | .berth => !s.sup.call.isOpen

/-- A profile request's record: a number above 8 is refused BAD_LINE (R184, log entry 24). -/
def withRecord (b : Byte) (s : State) (f : RecordName → State × Reply) : State × Reply :=
  match recordOfByte b with
  | none => (s, plain .badLine)
  | some r => f r

/-- READ_PROFILE (R188, R191). -/
def readProfile (r : RecordName) (s : State) : State × Reply :=
  let st := s.store
  let writing := match st.programming with | .write q _ => q == r | .lock _ => false | .none => false
  if writing then (s, plain .storeBusy)
  else (s, ⟨.ok, .profile {
    bytes := (st.stored.get r).bytes, checkGood := (st.stored.get r).checkGood
    sessionLock := st.sessionLock.get r, commissioned := st.commissioned.get r, applyPending := st.applyPending.get r
    berthDefaults := match r with | .line _ => none | .berth => some st.berthDefaults }⟩)

/-- The 78 bytes of a WRITE_PROFILE: a payload's fields are followed by zero bytes (R181, R186). -/
def profileBytes (bytes : List Byte) : List Byte := (bytes ++ List.replicate 78 0#8).take 78

/-- WRITE_PROFILE (R187, R188). -/
def writeProfile (r : RecordName) (bytes : List Byte) (s : State) : State × Reply :=
  let b := profileBytes bytes
  if s.store.busy then (s, plain .storeBusy)
  else if s.store.locked r then (s, plain .locked)
  else if !recordFree s r then (s, plain .profileInUse)
  else
    match profileFailure s r b with
    | some offset => (s, ⟨.badProfile, .offset offset⟩)
    | none => (s.setStore { s.store with programming := .write r (withCheckCode b) }, plain .ok)

/-- LOCK_PROFILE (R190). -/
def lockProfile (r : RecordName) (s : State) : State × Reply :=
  if s.store.busy then (s, plain .storeBusy)
  else (s.setStore { s.store with sessionLock := s.store.sessionLock.set r true }, plain .ok)

/-- COMMISSION_PROFILE (R190). Its BAD_PROFILE carries no offset: R190 names none, though 9.6 says that the payload of this code
carries one (DESIGN CHOICE, log entry 48). -/
def commissionProfile (r : RecordName) (s : State) : State × Reply :=
  let st := s.store
  if st.busy then (s, plain .storeBusy)
  else if !(st.stored.get r).checkGood || st.applyPending.get r then (s, plain .badProfile)
  else if st.commissioned.get r then (s, plain .ok)
  else (s.setStore { st with programming := .lock r }, plain .ok)

/-- VERIFY_STORE (R191). -/
def verifyStore (s : State) : State × Reply :=
  if s.store.busy then (s, plain .storeBusy)
  else
    (s, ⟨.ok, .verified ⟨s.store.stored.lines.imap fun _ r => !r.checkGood, !s.store.stored.berth.checkGood⟩⟩)

/-- A record applied at once (R189). -/
def applyRecord (r : RecordName) (s : State) : State :=
  match r with
  | .line l => applyLine l false s
  | .berth => applyBerth s

/-- Programming of a record ends: read back, compared, and applied or left pending (R189). A mismatch leaves the record
failing its check. DEDUCED (log entry 64), unsafe: its STORE "with failure" is the plain pair of R178, which has no place for a
failure. -/
def writeEnds (readBack : List Byte) (s : State) : State :=
  match s.store.programming with
  | .write r bytes =>
    let st := { s.store with programming := .none }
    if readBack = bytes then
      let t := s.setStore { st with stored := st.stored.set r ⟨bytes, false⟩ }
      if recordFree t r then applyRecord r t
      else t.setStore { t.store with applyPending := t.store.applyPending.set r true }
    else raise .store r.tag (s.setStore { st with stored := st.stored.set r ⟨readBack, true⟩ })
  | .lock _ => s
  | .none => s

/-- Programming of a commissioning lock ends (R190). -/
def lockEnds (s : State) : State :=
  match s.store.programming with
  | .lock r =>
    raise .store r.tag (s.setStore { s.store with
      programming := .none, commissioned := s.store.commissioned.set r true })
  | .write _ _ => s
  | .none => s

end Sys2Proof.Machine
end

