-- ==== Sys2Proof/Machine/Resets.lean ====
section
/-! DEFINITION. The beginning and the completion of a reset (chapter 11, R185). -/

namespace Sys2Proof.Machine

/-- The stored records as a reset leaves them: a record whose programming it cut short fails its check, with free bytes
(R188, R193; log entry 7). -/
def storedAfterReset (s : State) : Records StoredRecord :=
  match s.store.programming with
  | .write r _ =>
    s.store.stored.set r ⟨(List.range 80).map (Config.tornByte s.choices), true⟩
  | .lock _ => s.store.stored
  | .none => s.store.stored

/-- The cause kept for a reset that begins: RESET held low while the supply rises gives a POWER_ON reset (R192). RESET driven low
after the supply has risen, while the POWER_ON reset still waits for its completion, keeps the cause POWER_ON too; the spec
leaves that open. DESIGN CHOICE, unsafe (log entry 62). -/
def causeOf (s : State) (c : ResetCause) : ResetCause := if s.resetting = some .powerOn then .powerOn else c

/-- A reset begins: working state is lost and the outputs take their reset levels (R192, R193). The stored records, the
commissioning locks and the levels on the inputs stay. -/
def beginReset (c : ResetCause) (s : State) : State :=
  { lmu := Lines.const LmuChannel.reset
    det := Lines.const DetectorChannel.reset
    drum := Lines.const (DrumChannel.reset .q0)
    repeater := ⟨none, 0, none, 0, .q0, 0⟩
    lcu := Lines.const LcuChannel.reset
    reg := Lines.const RegulatorChannel.reset
    plan := PlanRecord.reset
    handed := []
    sup := Supervisor.reset
    bus := { DriveBus.reset with activity := .idle }
    shore := { ShorePort.reset with events := ⟨Lines.const KindSet.none, KindSet.none⟩, attnLow := false }
    vessel := { VesselPort.reset 0 with events := ⟨Lines.const KindSet.none, KindSet.none⟩, reportTimer := none }
    store := { ProfileStore.reset with stored := storedAfterReset s, commissioned := s.store.commissioned }
    pins := s.pins
    resetting := some (causeOf s c)
    resetCause := causeOf s c
    now := 0
    choices := s.choices + 1
    pending := s.pending }

/-- The working copy loaded from a line's stored record (R185). -/
def loadedLine (r : StoredRecord) : Option LineProfile := if r.checkGood then some (lineProfileOf r.bytes) else none

/-- The state a line comes up in (R185, R193). -/
def stateAfterReset (w : Option LineProfile) : LineState :=
  match w with
  | some p => if p.enabled then .adopting else .disabled
  | none => .disabled

/-- An LMU channel at reset completion: an ADOPTING line's starts its first gate. A DISABLED line's working zero16 is 0
(R1, R24; log entry 51). -/
def lmuAtCompletion (w : Option LineProfile) : LmuChannel :=
  match w with
  | some p =>
    if p.enabled then
      ({ LmuChannel.reset with workingZero16 := p.zero16, stateView := .adopting }.reclassed).gateStarted p
    else LmuChannel.reset
  | none => LmuChannel.reset

/-- A Drum Counter channel at reset completion (R42, R49). -/
def drumAtCompletion (pins : EncoderPins) (w : Option LineProfile) : DrumChannel :=
  let d := DrumChannel.reset (Quad.ofPins pins)
  match w with
  | some p =>
    if p.enabled then
      { d with
        stationaryTimer := some 1000, stationary := false
        softZoneSteps := distanceSteps p.softZone p.stepUm, payoutMaxSteps := distanceSteps p.payoutMax p.stepUm }
    else d
  | none => d

/-- An LCU channel at reset completion (R59). -/
def lcuAtCompletion (w : Option LineProfile) : LcuChannel :=
  match w with
  | some p =>
    if p.enabled then { LcuChannel.reset with state := .adopting, workingTarget := p.targetDefault } else LcuChannel.reset
  | none => LcuChannel.reset

/-- A Render Regulator channel at reset completion (R96). -/
def regAtCompletion (w : Option LineProfile) : RegulatorChannel :=
  match w with
  | some p =>
    if p.enabled then
      { RegulatorChannel.reset.applied p with
        stateView := .adopting, payoutMax := distanceSteps p.payoutMax p.stepUm }
    else RegulatorChannel.reset
  | none => RegulatorChannel.reset

/-- STORE raised for each bad record, lines first (R185). -/
def raiseBad (s : State) : State :=
  let t := Line.all.foldl
    (fun u l => if (u.store.stored.lines.get l).checkGood then u else raise .store (.line l) u) s
  if t.store.stored.berth.checkGood then t else raise .store .berth t

/-- Reset completion: working state at its reset values, the profiles loaded, lines ADOPTING or DISABLED, RESET_SEEN
pending, then the STORE events, adoption complete if no line is ADOPTING, and the permits (R185, R193, R197). -/
def completeReset (s : State) : State :=
  let working := s.store.stored.lines.imap fun _ r => loadedLine r
  let berthGood := s.store.stored.berth.checkGood
  let berth := if berthGood then berthProfileOf s.store.stored.berth.bytes else BerthProfile.defaults
  let t : State :=
    { s with
      lmu := working.imap fun _ w => lmuAtCompletion w
      det := working.imap fun _ w => { DetectorChannel.reset with stateView := stateAfterReset w }
      drum := working.imap fun l w => drumAtCompletion (s.pins.encoder.get l) w
      repeater := ⟨none, 0, none, 0, .q0, flankPeriod berth⟩
      lcu := working.imap fun _ w => lcuAtCompletion w
      reg := working.imap fun _ w => regAtCompletion w
      plan := PlanRecord.reset
      handed := []
      sup := { Supervisor.reset with view := working.imap fun _ w => LineView.reset (stateAfterReset w) }
      bus := DriveBus.reset
      shore := ShorePort.reset
      vessel := VesselPort.reset (clampNat 200 5000 berth.reportInterval)
      store := { s.store with
        sessionLock := Records.const false, working := working, workingBerth := berth, berthDefaults := !berthGood
        programming := .none, applyPending := Records.const false }
      resetting := none
      now := 0 }
  evalPermits (settleAdoption (raiseBad t))

end Sys2Proof.Machine
end

