-- ==== Sys2Proof/Machine/Ports.lean ====
section
/-! DEFINITION. The Shore and Vessel Ports: the checks of a request, its owner, the read replies, frames, messages, and the
transmitter (chapter 9). -/

namespace Sys2Proof.Machine

/-! ## Checks (R163 to R165) -/

/-- A kind that a port does not know: none of the owner table, no line command of the ten, and from the shore the requests
that only a vessel has (log entry 22). -/
def unknownKind (sender : Sender) : Request → Bool
  | .unknown _ _ => true
  | .unknownCommand _ _ => true
  | .bind _ => sender == .shore
  | .unbind => sender == .shore
  | .setReporting _ _ _ => sender == .shore
  | _ => false

/-- The line commands a vessel may send (R164). -/
def vesselCommand : LineCommand → Bool
  | .attach => true
  | .cancel => true
  | .release => true
  | .trip => true
  | .rewind => true
  | .resume => true
  | .setTarget _ => true
  | .rebase => false
  | .zero => false
  | .clearFault => false

/-- The requests a vessel may send (R164). -/
def vesselMay : Request → Bool
  | .bind _ => true
  | .unbind => true
  | .lineCommand _ c => vesselCommand c
  | .tripAll => true
  | .planSubmit _ => true
  | .planHold => true
  | .planResume => true
  | .planAbort => true
  | .readLine _ => true
  | .readCall => true
  | .setReporting _ _ _ => true
  | .ackReset => true
  | _ => false

/-- A coded field outside its values, where no other code is named for it (R163, R176). -/
def badField : Request → Bool
  | .setReporting mode _ _ => mode == .other
  | _ => false

/-- A request that needs no reset acknowledgement (R165). -/
def unacked : Request → Bool
  | .readLine _ => true
  | .readCall => true
  | .readPlan => true
  | .readCaptures => true
  | .readEvents => true
  | .readProfile _ => true
  | .ackReset => true
  | .lineCommand _ .trip => true
  | .tripAll => true
  | _ => false

/-- A vessel request that needs no binding (R164). -/
def unbound : Request → Bool
  | .bind _ => true
  | .readLine _ => true
  | .readCall => true
  | .ackReset => true
  | .setReporting _ _ _ => true
  | _ => false

/-- The reset-acknowledged flag of a sender's port (R165). -/
def acked (s : State) : Sender → Bool
  | .shore => s.shore.acked
  | .vessel _ => s.vessel.acked

/-- A vessel code is the bound one (R164). -/
def boundTo (s : State) (code : Half) : Bool :=
  s.sup.call.isOpen && s.sup.call.vesselCode == some code && code != 0#16

/-- Checks 4 and 5 of R163. -/
def lineRefusal (s : State) (r : Request) : Option ReplyCode :=
  match namedLine r with
  | none => none
  | some b =>
    match lineOfByte b with
    | none => some .badLine
    | some l => if s.stateOf l = .disabled then some .lineDisabled else none

/-- Checks 7 and 8 of R163. -/
def vesselRefusal (s : State) (code : Half) (r : Request) : Option ReplyCode :=
  if !unbound r && !boundTo s code then some .notBound
  else
    match r with
    | .lineCommand b _ =>
      match lineOfByte b with
      | some l => if s.sup.call.assigned.get l then none else some .notAssigned
      | none => none
    | _ => none

/-- The checks of R163 in their order: the first that fails gives the code. `formOk` says that the reserved header bytes are
zero, or that the payload has its kind's length. -/
def refusal (s : State) (sender : Sender) (formOk : Bool) (r : Request) : Option ReplyCode :=
  if unknownKind sender r then some .unknownKind
  else if sender != .shore && !vesselMay r then some .shoreOnly
  else if !formOk || badField r then some .badFrame
  else
    match lineRefusal s r with
    | some code => some code
    | none =>
      if !unacked r && !acked s sender then some .resetNotAcked
      else
        match sender with
        | .shore => none
        | .vessel code => vesselRefusal s code r

/-! ## Read replies (R179, R180) -/

/-- READ_LINE's items for the shore only (R162, R180). -/
def diagnosticsOf (l : Line) (s : State) : LineDiagnostics :=
  let c := s.lmu.get l
  let d := s.det.get l
  let m := s.bus.modules.get l
  { tRaw := c.tRaw, f16 := c.f16, missCount := c.missCount, rateClass := c.rateClass, peak := c.peak
    lockPosition := (s.lcu.get l).lockPosition, errorCount := (s.drum.get l).errorCount, counters := d.counters
    surgeCounter := d.surgeCounter, active := d.active, lastStatus := (s.lcu.get l).lastStatus, failures := m.failures
    lastPhase := m.lastPhase }

/-- READ_LINE (R180). delta is T_f minus Ref as they stand (log entry 16). -/
def readLine (shore : Bool) (l : Line) (s : State) : LineReply :=
  let c := s.lcu.get l
  let m := s.lmu.get l
  let d := s.drum.get l
  { state := c.state, resume := c.resume, faultCause := c.faultCause, intent := c.intent, tF := m.tF, ref := m.ref
    delta := m.tF - m.ref, position := d.position, referenced := d.referenced, netPayoutMm := netPayoutMm s l
    speed := d.speed, workingTarget := c.workingTarget, renderSpeed := (s.reg.get l).speed
    renderInhibited := c.renderInhibited, recoverInhibited := c.recoverInhibited, surge := (s.det.get l).surgeFlag
    planMark := c.planMark, diagnostics := if shore then some (diagnosticsOf l s) else none }

/-- READ_CALL (R128, R180). -/
def readCall (shore : Bool) (s : State) : CallReply :=
  let c := s.sup.call
  { phase := c.phase, vesselCode := c.vesselCode, number := c.number, assigned := c.assigned, time := c.time
    surgeCount := c.surgeCount, madeFastTime := c.madeFastTime, rampPermit := s.sup.rampPermit
    departPermit := s.sup.departPermit
    diagnostics :=
      if shore then some {
        trip := s.sup.trip.level, stop := s.sup.stop.level, rampClear := s.sup.rampClear.level
        adoptionComplete := s.sup.adoptionComplete, selected := s.repeater.selected
        pendingCount := s.repeater.pendingCount, output := s.repeater.output, abandonedCount := s.shore.abandonedCount
        framingErrors := s.vessel.framingErrors, mode := s.vessel.mode, interval := s.vessel.interval
        reportMask := s.vessel.mask, shoreAcked := s.shore.acked, vesselAcked := s.vessel.acked }
      else none }

/-- READ_CAPTURES (R180). -/
def readCaptures (s : State) : CapturesReply :=
  { firstOverload := s.sup.firstOverload, firstFault := s.sup.firstFault, overloadCount := s.sup.overloadCount
    faultCount := s.sup.faultCount, peaks := s.lmu.imap fun _ c => c.peak }

/-! ## Requests of the ports themselves (R165, R176, R179) -/

/-- READ_EVENTS: the set and, while RESET_SEEN is pending, the cause; then every other pair is removed (R179). -/
def readEvents (s : State) : State × Reply :=
  let e := s.shore.events
  (s.setShore { s.shore with events := e.cleared }.withAttn,
   ⟨.ok, .events e (if e.berth.resetSeen then some s.resetCause else none)⟩)

/-- SET_MASK (R171, R179). -/
def setMask (mask : KindSet) (s : State) : State × Reply :=
  (s.setShore { s.shore with mask := mask }.withAttn, plain .ok)

/-- ACK_RESET at a master's port (R165). -/
def ackReset (sender : Sender) (s : State) : State × Reply :=
  match sender with
  | .shore =>
    (s.setShore { s.shore with acked := true, events := s.shore.events.acknowledged }.withAttn, plain .ok)
  | .vessel _ =>
    (s.setVessel { s.vessel with acked := true, events := s.vessel.events.acknowledged }, plain .ok)

/-- SET_REPORTING (R176). -/
def setReporting (mode : ReportModeField) (interval : Nat) (mask : KindSet) (s : State) : State × Reply :=
  let used := clampNat 200 5000 interval
  let v := s.vessel
  match mode with
  | .other => (s, plain .badFrame)
  | .stream =>
    (s.setVessel { v with mode := .stream, interval := used, mask := mask, reportTimer := some used },
     ⟨.ok, .interval used⟩)
  | .event =>
    (s.setVessel { v with
       mode := .event, interval := used, mask := mask, reportTimer := none
       reportOwed := v.reportOwed || v.events.meets mask },
     ⟨.ok, .interval used⟩)

/-! ## Owners (R163) -/

/-- A request that passed every check, handed to its owner (R163). -/
def owner (sender : Sender) (r : Request) (s : State) : State × Reply :=
  match r with
  | .unknown _ _ => (s, plain .unknownKind)
  | .unknownCommand _ _ => (s, plain .unknownKind)
  | .lineCommand b c =>
    match lineOfByte b with
    | some l => if c = .attach then attachTaken sender s (lineCommand l c s) else lineCommand l c s
    | none => (s, plain .badLine)
  | .tripAll => (tripAll s, plain .ok)
  | .planSubmit steps => planSubmit sender steps s
  | .planHold => planHold s
  | .planResume => planResume sender s
  | .planAbort => planAbort s
  | .bind lines =>
    match sender with
    | .vessel code => bindCall code lines s
    | .shore => (s, plain .unknownKind)
  | .unbind => unbindCall s
  | .closeCall => closeByShore s
  | .clearCaptures => (clearCaptures s, plain .ok)
  | .selectRepeater sel => (selectLine (sel.bind lineOfByte) s, plain .ok)
  | .readProfile b => withRecord b s fun r => readProfile r s
  | .writeProfile b bytes => withRecord b s fun r => writeProfile r bytes s
  | .lockProfile b => withRecord b s fun r => lockProfile r s
  | .commissionProfile b => withRecord b s fun r => commissionProfile r s
  | .verifyStore => verifyStore s
  | .readLine b =>
    match lineOfByte b with
    | some l => (s, ⟨.ok, .line (readLine (sender == .shore) l s)⟩)
    | none => (s, plain .badLine)
  | .readCall => (s, ⟨.ok, .callRecord (readCall (sender == .shore) s)⟩)
  | .readPlan => (s, ⟨.ok, .plan s.plan⟩)
  | .readCaptures => (s, ⟨.ok, .captures (readCaptures s)⟩)
  | .readEvents => readEvents s
  | .setMask mask => setMask mask s
  | .ackReset => ackReset sender s
  | .setReporting mode interval mask => setReporting mode interval.toNat mask s
  | .softReset => (s, plain .ok)

/-- A vessel's ATTACH that reached the part together with the CLOSE_CALL of its call, and is decoded after it (R133, log entry
50). -/
def overtaken (sender : Sender) (r : Request) (s : State) : Bool :=
  match sender, r with
  | .vessel code, .lineCommand _ .attach => !s.sup.call.isOpen && s.sup.closedCall == some (code, s.now)
  | _, _ => false

/-- A decoded request: refused by the first check that fails, without a change of state, or taken by its owner (R163). An ATTACH
that a close overtook has passed the checks before the close, and the LCU finds no open call, or meets the check of the binding
after it; which of the two is free (R133, log entry 50). -/
def takeRequest (sender : Sender) (formOk : Bool) (r : Request) (s : State) : State × Reply :=
  match refusal s sender formOk r with
  | some code =>
    if code = .notBound && overtaken sender r s then
      (s.drawn, plain (if Config.choice s.choices then .notAssigned else .notBound))
    else (s, plain code)
  | none => owner sender r s

/-! ## Vessel Port: reports, replies, messages (R172 to R177) -/

/-- A Status Report's items (R177). -/
def composeReport (s : State) : StatusReport :=
  { phase := s.sup.call.phase
    boundCode := if s.sup.call.isBound then s.sup.call.vesselCode.getD 0 else 0
    rampPermit := s.sup.rampPermit, departPermit := s.sup.departPermit, planState := s.plan.state
    planStep := s.plan.current.getD 0, overrunFlag := s.vessel.overrunFlag, acked := s.vessel.acked
    resetCause := s.resetCause
    kinds := Line.all.foldl (fun k l => k.union (s.vessel.events.lines.get l)) s.vessel.events.berth
    lines := s.lcu.imap fun l c =>
      if c.state = .disabled then ⟨.disabled, 0, 0, false, false, false, false⟩
      else ⟨c.state, (s.lmu.get l).tF, (s.drum.get l).speed, (s.det.get l).surgeFlag, c.renderInhibited,
            c.recoverInhibited, c.faultCause.isSome⟩ }

/-- The transmitter, when IDLE, takes a waiting reply, else an owed report (R175, R177). -/
def takeTx (s : State) : State :=
  let v := s.vessel
  match v.tx with
  | .sending _ => s
  | .idle =>
    match v.replyPlace with
    | some r => s.setVessel { v with replyPlace := none, tx := .sending (.reply r) }
    | none =>
      if v.reportOwed then
        let m := composeReport s
        s.setVessel { v with
          tx := .sending (.report s.store.workingBerth.berthCode m.boundCode m), reportOwed := false
          overrunFlag := false, events := v.events.cleared }
      else s

/-- The waiting message decoded while the reply place is empty (R174). -/
def decodeWaiting (s : State) : State :=
  match s.vessel.waiting, s.vessel.replyPlace with
  | some m, none =>
    let r := takeRequest (.vessel m.code) m.formOk m.request (s.setVessel { s.vessel with waiting := none })
    r.1.setVessel { r.1.vessel with
      replyPlace := some ⟨r.1.store.workingBerth.berthCode, m.code, replyKind m.kind, r.2⟩ }
  | _, _ => s

/-- The transmitter and the decoder after a message or its end: what is due is taken at once (R174, R175; log entry 31). -/
def serveVessel (s : State) : State := takeTx (decodeWaiting (takeTx s))

/-- A complete message with a good check code and this berth's code goes to the waiting place, or is discarded with the overrun
flag set (R173). -/
def placeMessage (m : VesselMessage) (s : State) : State :=
  match s.vessel.waiting with
  | some _ => s.setVessel { s.vessel with overrunFlag := true }
  | none => s.setVessel { s.vessel with waiting := some m }

/-- The assembler discards its message with a count (R173). -/
def VesselPort.discarded (v : VesselPort) : VesselPort :=
  { v with assembler := .hunting, gapTimer := none, framingErrors := satInc 255 v.framingErrors }

/-- The complete message, if there is one. -/
def VesselPort.complete (v : VesselPort) : Option (List Byte) :=
  match v.assembler with
  | .assembling bytes => if messageComplete bytes then some bytes else none
  | .hunting => none

/-- A complete message is checked and placed (R173, R174). -/
def messageReceived (s : State) : State :=
  match s.vessel.complete with
  | none => s
  | some bytes =>
    if !messageCheckGood bytes then s.setVessel s.vessel.discarded
    else
      let t := s.setVessel { s.vessel with assembler := .hunting, gapTimer := none }
      if messageBerth bytes = s.store.workingBerth.berthCode then serveVessel (placeMessage (messageOf bytes) t) else t

/-- A byte at the assembler (R173). -/
def byteReceived (b : Byte) (goodStop : Bool) (s : State) : State :=
  let v := s.vessel
  match v.assembler with
  | .hunting =>
    if goodStop && b == 0xA5#8 then s.setVessel { v with assembler := .assembling [b], gapTimer := some 5 } else s
  | .assembling bytes =>
    let more := bytes ++ [b]
    if !goodStop then s.setVessel v.discarded
    else if more.length = 2 && (b.toNat < 5 || 60 < b.toNat) then s.setVessel v.discarded
    else
      s.setVessel { v with
        assembler := .assembling more, gapTimer := if messageComplete more then none else some 5 }

/-- A byte on VP_RX: a message that is complete is checked first (R173). -/
def vesselByte (b : Byte) (goodStop : Bool) (s : State) : State := byteReceived b goodStop (messageReceived s)

/-- The gap timer expires (R173). -/
def gapExpires (s : State) : State :=
  if s.vessel.gapTimer.isNone then s else s.setVessel s.vessel.discarded

/-- The transmitter finishes its message (R174, R175). -/
def transmitEnds (s : State) : State :=
  match s.vessel.tx with
  | .idle => s
  | .sending _ => serveVessel (s.setVessel { s.vessel with tx := .idle })

/-- The report timer expires (R176). -/
def reportExpires (s : State) : State :=
  if s.vessel.reportTimer.isNone then s
  else s.setVessel { s.vessel with reportOwed := true, reportTimer := some s.vessel.interval }

/-! ## Shore Port (R166 to R170) -/

/-- A response put into the slot: it carries its request's kind and line, and the latches, which are cleared (R169). -/
def putResponse (f : ShoreFrame) (reply : Reply) (s : State) : State :=
  let p := s.shore
  s.setShore { p with
    slot := .ready ⟨f.kind, f.line, p.collision, p.overrun, p.abandonedSeen, reply⟩
    collision := false, overrun := false, abandonedSeen := false }

/-- The decode of a request ends: the response becomes READY, and an accepted SOFT_RESET then resets the part (R169, R192). -/
def answerShore (f : ShoreFrame) (s : State) : State :=
  let r := takeRequest .shore f.formOk f.request s
  let t := putResponse f r.2 r.1
  if f.request = .softReset && r.2.code = .ok then completeReset (beginReset .soft t) else t

/-- The decode of the taken request ends (R169). -/
def shoreDecodeEnds (s : State) : State :=
  match s.shore.slot with
  | .pending f => answerShore f s
  | .ready _ => s
  | .empty => s

/-- SP_SEL is asserted: the byte count is 0, and the frame output is chosen from the slot (R167). DESIGN CHOICE (log entry 63),
unsafe: the count stands at 0 through the frame. -/
def frameStarts (s : State) : State :=
  if s.pins.selected then s
  else
    let t := s.setPins { s.pins with selected := true }
    t.setShore { t.shore with
      byteCount := 0
      frameOut := some (match t.shore.slot with
        | .ready r => .response r
        | .pending _ => .notReady
        | .empty => .noResponse) }

/-- A complete frame (R168). -/
def takeFrame (frame : ShoreFrame) (s : State) : State :=
  let p := s.shore
  match p.slot with
  | .pending _ => s.setShore { p with collision := true }
  | .empty => s.setShore { p with slot := .pending frame }
  | .ready r =>
    s.setShore { p with slot := .pending frame, overrun := p.overrun || p.frameOut != some (.response r) }

/-- SP_SEL is released after a count of whole bytes on SP_DI: a complete frame is taken, any other abandoned (R168, R170). A
frame cut off by a reset is dropped without counting (R166). DESIGN CHOICE (log entry 63), unsafe: the byte count takes its value
here and keeps it until the next assertion; R166 speaks only of the present frame. -/
def frameReleased (count : Nat) (midByte : Bool) (frame : List Byte) (s : State) : State :=
  if !s.pins.selected then s
  else
    let t := s.setPins { s.pins with selected := false }
    if t.shore.frameOut.isNone then t
    else
      let u :=
        if count = 96 && !midByte then takeFrame (frameOf frame) t
        else t.setShore { t.shore with
          abandonedCount := satInc 255 t.shore.abandonedCount, abandonedSeen := true }
      u.setShore { u.shore with frameOut := none, byteCount := count }

/-! ## Requests as commands (log entries 3 and 4) -/

/-- A request of the shore as one command: the end of its decode. While another request is being decoded it is lost as a
collision; an earlier response has been carried out by the frame that brought the request (R168, R169). -/
def shoreRequest (r : Request) (s : State) : State :=
  match s.shore.slot with
  | .pending f =>
    if f.request = r then answerShore f s else s.setShore { s.shore with collision := true }
  | .empty => answerShore (ShoreFrame.of r) s
  | .ready _ => answerShore (ShoreFrame.of r) s

/-- A request of a vessel as one command: a complete good message for this berth (R173, R174). -/
def vesselRequest (code : Half) (r : Request) (s : State) : State := serveVessel (placeMessage ⟨code, vesselKind r, r, true⟩ s)

/-- A request of either master as one command. -/
def request (sender : Sender) (r : Request) (s : State) : State :=
  match sender with
  | .shore => shoreRequest r s
  | .vessel code => vesselRequest code r s

/-! ## Commands -/

/-- What a command does while no reset is in progress, and then the transmitter takes what is due (R175, log entries 17, 30).
During a reset nothing is taken. -/
def whenRunning (f : State → State) (s : State) : State := if s.resetting.isSome then s else takeTx (f s)

end Sys2Proof.Machine
end

