-- ==== Sys2Proof/Machine/BusCommands.lean ====
section
/-! DEFINITION. Meanings of commands: Drive Bus transactions (R147 to R161). -/

namespace Sys2Proof.Machine

/-- The head of the queue goes on the bus (R156). -/
def execTransactionStart (s : State) : Host.Outcome State Fault Refusal :=
  .next (whenRunning startTransaction s)

/-- A COMMAND transaction completes (R150, R158). -/
def execCommandComplete (s : State) : Host.Outcome State Fault Refusal :=
  .next (whenRunning completeCommand s)

/-- A STATUS transaction completes (R152). -/
def execStatusComplete (bytes : StatusBytes) (s : State) : Host.Outcome State Fault Refusal :=
  .next (whenRunning (completeStatus bytes) s)

/-- A transaction fails on a missing acknowledge (R150, R151, R159). -/
def execTransactionFailed (why : NoAck) (s : State) : Host.Outcome State Fault Refusal :=
  .next (whenRunning (fun t =>
    if canFail why t then failTransaction (phaseOf why) .idle t else t) s)

/-- The stuck timer expires: the transaction fails and a bus recovery begins (R157). -/
def execBusStuck (s : State) : Host.Outcome State Fault Refusal :=
  .next (whenRunning (failTransaction .busStuck .recovery) s)

/-- The bus recovery ends (R157). -/
def execBusRecoveryEnd (s : State) : Host.Outcome State Fault Refusal :=
  .next (whenRunning (fun t =>
    if t.bus.activity = .recovery then t.setBus { t.bus with activity := .idle } else t) s)

end Sys2Proof.Machine
end

