-- ==== Sys2Proof/Machine/CallCommands.lean ====
section
/-! DEFINITION. Meanings of commands: The call, the captures and the panel inputs (R128 to R146). -/

namespace Sys2Proof.Machine

/-- BIND (R130, R131). -/
def execBind (code : Half) (lines : LineSet) (s : State) : Host.Outcome State Fault Refusal :=
  .next (whenRunning (request (.vessel code) (.bind lines)) s)

/-- UNBIND (R133). -/
def execUnbind (code : Half) (s : State) : Host.Outcome State Fault Refusal :=
  .next (whenRunning (request (.vessel code) .unbind) s)

/-- CLOSE_CALL (R133). -/
def execCloseCall (sender : Sender) (s : State) : Host.Outcome State Fault Refusal :=
  .next (whenRunning (request sender .closeCall) s)

/-- CLEAR_CAPTURES (R145). -/
def execClearCaptures (sender : Sender) (s : State) : Host.Outcome State Fault Refusal :=
  .next (whenRunning (request sender .clearCaptures) s)

/-- The raw level of a panel input changes (R139). The level stands on the input during a reset too. -/
def execPanelInputChange (input : PanelInput) (level : Bool) (s : State) : Host.Outcome State Fault Refusal :=
  .next (if s.resetting.isSome then s.setPins (setRaw s.pins level input) else whenRunning (panelRaw input level) s)

/-- The stability timer of a panel input expires (R139 to R141). -/
def execPanelStabilityExpiry (input : PanelInput) (s : State) : Host.Outcome State Fault Refusal :=
  .next (whenRunning (panelSettles input) s)

end Sys2Proof.Machine
end

