-- ==== Sys2Proof/Machine/DrumCommands.lean ====
section
/-! DEFINITION. Meanings of commands: Drum Counter and Length Repeater (R42 to R58). -/

namespace Sys2Proof.Machine

/-- The level pair of a line's encoder inputs (R43, R44, R45). The levels stand on the inputs during a reset too (R42). -/
def execEncoderChange (l : Line) (a b : Bool) (s : State) : Host.Outcome State Fault Refusal :=
  .next (whenRunning (decodePair l (Quad.ofPins ⟨a, b⟩))
    (s.setPins { s.pins with encoder := s.pins.encoder.set l ⟨a, b⟩ }))

/-- The stationary timer expires (R52, R58). -/
def execStationaryExpiry (l : Line) (s : State) : Host.Outcome State Fault Refusal :=
  .next (whenRunning (stationaryExpires l) s)

/-- The flank timer expires (R57). -/
def execFlankExpiry (s : State) : Host.Outcome State Fault Refusal :=
  .next (whenRunning (fun t =>
    t.setRepeater (t.repeater.flanked (flankPeriod t.store.workingBerth))) s)

/-- SELECT_REPEATER (R54). -/
def execSelectRepeater (sender : Sender) (selection : Option Byte) (s : State) : Host.Outcome State Fault Refusal :=
  .next (whenRunning (request sender (.selectRepeater selection)) s)

end Sys2Proof.Machine
end

