-- ==== Sys2Proof/Machine/LineCommands.lean ====
section
/-! DEFINITION. Meanings of commands: Line commands, TRIP_ALL and the state timers (R64 to R77, R90, R91, R108, R109). -/

namespace Sys2Proof.Machine

/-- ATTACH (R70). -/
def execAttach (sender : Sender) (line : Byte) (s : State) : Host.Outcome State Fault Refusal :=
  .next (whenRunning (request sender (.lineCommand line .attach)) s)

/-- CANCEL (R71). -/
def execCancel (sender : Sender) (line : Byte) (s : State) : Host.Outcome State Fault Refusal :=
  .next (whenRunning (request sender (.lineCommand line .cancel)) s)

/-- RELEASE (R72). -/
def execRelease (sender : Sender) (line : Byte) (s : State) : Host.Outcome State Fault Refusal :=
  .next (whenRunning (request sender (.lineCommand line .release)) s)

/-- TRIP (R90). -/
def execTrip (sender : Sender) (line : Byte) (s : State) : Host.Outcome State Fault Refusal :=
  .next (whenRunning (request sender (.lineCommand line .trip)) s)

/-- REWIND (R73). -/
def execRewind (sender : Sender) (line : Byte) (s : State) : Host.Outcome State Fault Refusal :=
  .next (whenRunning (request sender (.lineCommand line .rewind)) s)

/-- RESUME (R74). -/
def execResume (sender : Sender) (line : Byte) (s : State) : Host.Outcome State Fault Refusal :=
  .next (whenRunning (request sender (.lineCommand line .resume)) s)

/-- SET_TARGET (R75, R108). -/
def execSetTarget (sender : Sender) (line : Byte) (tension : Half) (s : State) : Host.Outcome State Fault Refusal :=
  .next (whenRunning (request sender (.lineCommand line (.setTarget tension))) s)

/-- REBASE (R109). -/
def execRebase (sender : Sender) (line : Byte) (s : State) : Host.Outcome State Fault Refusal :=
  .next (whenRunning (request sender (.lineCommand line .rebase)) s)

/-- ZERO (R76). -/
def execZero (sender : Sender) (line : Byte) (s : State) : Host.Outcome State Fault Refusal :=
  .next (whenRunning (request sender (.lineCommand line .zero)) s)

/-- CLEAR_FAULT (R77). -/
def execClearFault (sender : Sender) (line : Byte) (s : State) : Host.Outcome State Fault Refusal :=
  .next (whenRunning (request sender (.lineCommand line .clearFault)) s)

/-- TRIP_ALL (R91, R125). -/
def execTripAll (sender : Sender) (s : State) : Host.Outcome State Fault Refusal :=
  .next (whenRunning (request sender .tripAll) s)

/-- The attach timer expires (R65). -/
def execAttachExpired (l : Line) (s : State) : Host.Outcome State Fault Refusal :=
  .next (whenRunning (attachExpires l) s)

/-- The ease timer expires (R65). -/
def execEaseFailed (l : Line) (s : State) : Host.Outcome State Fault Refusal :=
  .next (whenRunning (easeExpires l) s)

/-- The tension timer expires (R66). -/
def execTensionTimeout (l : Line) (s : State) : Host.Outcome State Fault Refusal :=
  .next (whenRunning (tensionExpires l) s)

/-- The latch timer expires in UNLATCHING or TRIPPED (R66). -/
def execLatchStuck (l : Line) (s : State) : Host.Outcome State Fault Refusal :=
  .next (whenRunning (latchExpires l) s)

/-- The rewind timer expires (R66). -/
def execRewindTimeout (l : Line) (s : State) : Host.Outcome State Fault Refusal :=
  .next (whenRunning (rewindExpires l) s)

/-- The latch timer of an ADOPTING line expires (R195). -/
def execAdoptionLatchExpiry (l : Line) (s : State) : Host.Outcome State Fault Refusal :=
  .next (whenRunning (adoptionExpires l) s)

end Sys2Proof.Machine
end

