-- ==== Sys2Proof/Machine/MeasurementCommands.lean ====
section
/-! DEFINITION. Meanings of commands: Load measurement (R2 to R19). -/

namespace Sys2Proof.Machine

/-- The sample timer expires (R5). -/
def execSampleBoundary (l : Line) (s : State) : Host.Outcome State Fault Refusal :=
  .next (whenRunning (sampleBoundary l) s)

/-- The gate completes as a good sample (R3, R9 to R17). -/
def execGoodSample (l : Line) (ticks : BitVec 24) (s : State) : Host.Outcome State Fault Refusal :=
  .next (whenRunning (fun t =>
    if (t.lmu.get l).gate = .counting && ticks.toNat != 0 then completeGood l ticks.toNat t else t) s)

/-- The gate deadline expires with the gate in flight (R4, R18). -/
def execGateDeadline (l : Line) (s : State) : Host.Outcome State Fault Refusal :=
  .next (whenRunning (fun t =>
    if (t.lmu.get l).gate = .idle then t else completeNoSignal l t) s)

/-- The tick count would pass its maximum (R4, R18). -/
def execTickCountOverflow (l : Line) (s : State) : Host.Outcome State Fault Refusal :=
  .next (whenRunning (fun t =>
    if (t.lmu.get l).gate = .counting then completeNoSignal l t else t) s)

/-- The hold timer expires (R16). -/
def execHoldTimerExpiry (l : Line) (s : State) : Host.Outcome State Fault Refusal :=
  .next (whenRunning (holdExpires l) s)

/-- The first rising edge of the load pin opens an ARMED gate (R3). -/
def execGateOpeningEdge (l : Line) (s : State) : Host.Outcome State Fault Refusal :=
  .next (whenRunning (fun t =>
    let c := t.lmu.get l
    if c.gate = .armed then t.setLmu l { c with gate := .counting, tickCount := 0 } else t) s)

end Sys2Proof.Machine
end

