-- ==== Sys2Proof/Machine/PlanCommands.lean ====
section
/-! DEFINITION. Meanings of commands: Let-go plans (R110 to R127). -/

namespace Sys2Proof.Machine

/-- PLAN_SUBMIT (R112, R113). -/
def execPlanSubmit (sender : Sender) (steps : List PlanStepField) (s : State) : Host.Outcome State Fault Refusal :=
  .next (whenRunning (request sender (.planSubmit steps)) s)

/-- PLAN_HOLD (R121). -/
def execPlanHold (sender : Sender) (s : State) : Host.Outcome State Fault Refusal :=
  .next (whenRunning (request sender .planHold) s)

/-- PLAN_RESUME (R122). -/
def execPlanResume (sender : Sender) (s : State) : Host.Outcome State Fault Refusal :=
  .next (whenRunning (request sender .planResume) s)

/-- PLAN_ABORT (R124). -/
def execPlanAbort (sender : Sender) (s : State) : Host.Outcome State Fault Refusal :=
  .next (whenRunning (request sender .planAbort) s)

/-- The delay timer of the plan expires (R115). -/
def execStepDelayExpiry (s : State) : Host.Outcome State Fault Refusal :=
  .next (whenRunning seqDelayExpiry s)

/-- The step timer expires (R117). -/
def execStepTimeout (s : State) : Host.Outcome State Fault Refusal :=
  .next (whenRunning seqStepTimeout s)

end Sys2Proof.Machine
end

