-- ==== Sys2Proof/Machine/PortCommands.lean ====
section
/-! DEFINITION. Meanings of commands: Frames, messages, reads and the ports' own requests (R163 to R180). -/

namespace Sys2Proof.Machine

/-- SP_SEL is asserted (R167). During a reset the level stands on the input (R166). -/
def execFrameStart (s : State) : Host.Outcome State Fault Refusal :=
  .next (if s.resetting.isSome then s.setPins { s.pins with selected := true } else whenRunning frameStarts s)

/-- SP_SEL is released after the bytes of a frame on SP_DI (R168, R170, R181). -/
def execFrameRelease (count : Nat) (midByte : Bool) (frame : List Byte) (s : State) : Host.Outcome State Fault Refusal :=
  .next (if s.resetting.isSome then s.setPins { s.pins with selected := false }
    else whenRunning (frameReleased count midByte frame) s)

/-- READ_LINE (R180). -/
def execReadLine (sender : Sender) (line : Byte) (s : State) : Host.Outcome State Fault Refusal :=
  .next (whenRunning (request sender (.readLine line)) s)

/-- READ_CALL (R180). -/
def execReadCall (sender : Sender) (s : State) : Host.Outcome State Fault Refusal :=
  .next (whenRunning (request sender .readCall) s)

/-- READ_PLAN (R180). -/
def execReadPlan (sender : Sender) (s : State) : Host.Outcome State Fault Refusal :=
  .next (whenRunning (request sender .readPlan) s)

/-- READ_CAPTURES (R180). -/
def execReadCaptures (sender : Sender) (s : State) : Host.Outcome State Fault Refusal :=
  .next (whenRunning (request sender .readCaptures) s)

/-- READ_EVENTS (R179). -/
def execReadEvents (sender : Sender) (s : State) : Host.Outcome State Fault Refusal :=
  .next (whenRunning (request sender .readEvents) s)

/-- SET_MASK (R179). -/
def execSetMask (sender : Sender) (mask : KindSet) (s : State) : Host.Outcome State Fault Refusal :=
  .next (whenRunning (request sender (.setMask mask)) s)

/-- ACK_RESET (R165). -/
def execAckReset (sender : Sender) (s : State) : Host.Outcome State Fault Refusal :=
  .next (whenRunning (request sender .ackReset) s)

/-- SOFT_RESET (R169, R192). -/
def execSoftReset (sender : Sender) (s : State) : Host.Outcome State Fault Refusal :=
  .next (whenRunning (request sender .softReset) s)

/-- SET_REPORTING (R176). -/
def execSetReporting (code : Half) (mode : ReportModeField) (interval : Half) (mask : KindSet) (s : State) : Host.Outcome State Fault Refusal :=
  .next (whenRunning (request (.vessel code) (.setReporting mode interval mask)) s)

/-- A complete Vessel message is checked and placed (R173, R174). -/
def execVesselMessageReceived (s : State) : Host.Outcome State Fault Refusal :=
  .next (whenRunning messageReceived s)

/-- The gap timer expires (R173). -/
def execGapTimerExpiry (s : State) : Host.Outcome State Fault Refusal :=
  .next (whenRunning gapExpires s)

/-- The transmitter finishes a message (R175). -/
def execTransmitEnd (s : State) : Host.Outcome State Fault Refusal :=
  .next (whenRunning transmitEnds s)

/-- The report timer expires (R176). -/
def execReportTimerExpiry (s : State) : Host.Outcome State Fault Refusal :=
  .next (whenRunning reportExpires s)

/-- The decode of the taken Shore request ends (R169). -/
def execShoreDecodeEnd (s : State) : Host.Outcome State Fault Refusal :=
  .next (whenRunning shoreDecodeEnds s)

/-- A byte arrives on VP_RX (R173). -/
def execVesselByteReceived (byte : Byte) (goodStop : Bool) (s : State) : Host.Outcome State Fault Refusal :=
  .next (whenRunning (vesselByte byte goodStop) s)

end Sys2Proof.Machine
end

