-- ==== Sys2Proof/Machine/ProfileCommands.lean ====
section
/-! DEFINITION. Meanings of commands: Profile requests and the ends of programming (R184 to R191). -/

namespace Sys2Proof.Machine

/-- READ_PROFILE (R191). -/
def execReadProfile (sender : Sender) (record : Byte) (s : State) : Host.Outcome State Fault Refusal :=
  .next (whenRunning (request sender (.readProfile record)) s)

/-- WRITE_PROFILE (R187, R188). -/
def execWriteProfile (sender : Sender) (record : Byte) (bytes : List Byte) (s : State) : Host.Outcome State Fault Refusal :=
  .next (whenRunning (request sender (.writeProfile record bytes)) s)

/-- LOCK_PROFILE (R190). -/
def execLockProfile (sender : Sender) (record : Byte) (s : State) : Host.Outcome State Fault Refusal :=
  .next (whenRunning (request sender (.lockProfile record)) s)

/-- COMMISSION_PROFILE (R190). -/
def execCommissionProfile (sender : Sender) (record : Byte) (s : State) : Host.Outcome State Fault Refusal :=
  .next (whenRunning (request sender (.commissionProfile record)) s)

/-- VERIFY_STORE (R191). -/
def execVerifyStore (sender : Sender) (s : State) : Host.Outcome State Fault Refusal :=
  .next (whenRunning (request sender .verifyStore) s)

/-- Programming of a record ends (R189). -/
def execWriteProgrammingEnd (readBack : List Byte) (s : State) : Host.Outcome State Fault Refusal :=
  .next (whenRunning (writeEnds readBack) s)

/-- Programming of a commissioning lock ends (R190). -/
def execLockProgrammingEnd (s : State) : Host.Outcome State Fault Refusal :=
  .next (whenRunning lockEnds s)

end Sys2Proof.Machine
end

