-- ==== Sys2Proof/Machine/ResetCommands.lean ====
section
/-! DEFINITION. Meanings of commands: Resets (R192, R193). -/

namespace Sys2Proof.Machine

/-- The supply rises to its operating level: a POWER_ON reset begins (R192). -/
def execPowerOn (s : State) : Host.Outcome State Fault Refusal :=
  .next (beginReset .powerOn s)

/-- RESET is driven low: a PIN reset begins (R192). -/
def execPinReset (s : State) : Host.Outcome State Fault Refusal :=
  .next (beginReset .pin s)

/-- The reset in progress completes (R185, R193). -/
def execResetCompletion (s : State) : Host.Outcome State Fault Refusal :=
  .next (if s.resetting.isSome then completeReset s else s)

end Sys2Proof.Machine
end

