-- ==== Sys2Proof/Machine/Dispatch.lean ====
section
/-! DEFINITION. The dispatch of a command to its meaning, one arm per constructor. -/

namespace Sys2Proof.Machine

/-- The effect of a command on everything but the queue. -/
def exec (i : Instr) (s : State) : Host.Outcome State Fault Refusal :=
  match i with
  | .powerOn => Sys2Proof.Machine.execPowerOn s
  | .pinReset => Sys2Proof.Machine.execPinReset s
  | .resetCompletion => Sys2Proof.Machine.execResetCompletion s
  | .sampleBoundary l => Sys2Proof.Machine.execSampleBoundary l s
  | .goodSample l ticks => Sys2Proof.Machine.execGoodSample l ticks s
  | .gateDeadline l => Sys2Proof.Machine.execGateDeadline l s
  | .tickCountOverflow l => Sys2Proof.Machine.execTickCountOverflow l s
  | .holdTimerExpiry l => Sys2Proof.Machine.execHoldTimerExpiry l s
  | .encoderChange l a b => Sys2Proof.Machine.execEncoderChange l a b s
  | .stationaryExpiry l => Sys2Proof.Machine.execStationaryExpiry l s
  | .flankExpiry => Sys2Proof.Machine.execFlankExpiry s
  | .selectRepeater sender selection => Sys2Proof.Machine.execSelectRepeater sender selection s
  | .attach sender line => Sys2Proof.Machine.execAttach sender line s
  | .cancel sender line => Sys2Proof.Machine.execCancel sender line s
  | .release sender line => Sys2Proof.Machine.execRelease sender line s
  | .trip sender line => Sys2Proof.Machine.execTrip sender line s
  | .rewind sender line => Sys2Proof.Machine.execRewind sender line s
  | .resume sender line => Sys2Proof.Machine.execResume sender line s
  | .setTarget sender line tension => Sys2Proof.Machine.execSetTarget sender line tension s
  | .rebase sender line => Sys2Proof.Machine.execRebase sender line s
  | .zero sender line => Sys2Proof.Machine.execZero sender line s
  | .clearFault sender line => Sys2Proof.Machine.execClearFault sender line s
  | .tripAll sender => Sys2Proof.Machine.execTripAll sender s
  | .attachExpired l => Sys2Proof.Machine.execAttachExpired l s
  | .easeFailed l => Sys2Proof.Machine.execEaseFailed l s
  | .tensionTimeout l => Sys2Proof.Machine.execTensionTimeout l s
  | .latchStuck l => Sys2Proof.Machine.execLatchStuck l s
  | .rewindTimeout l => Sys2Proof.Machine.execRewindTimeout l s
  | .adoptionLatchExpiry l => Sys2Proof.Machine.execAdoptionLatchExpiry l s
  | .planSubmit sender steps => Sys2Proof.Machine.execPlanSubmit sender steps s
  | .planHold sender => Sys2Proof.Machine.execPlanHold sender s
  | .planResume sender => Sys2Proof.Machine.execPlanResume sender s
  | .planAbort sender => Sys2Proof.Machine.execPlanAbort sender s
  | .stepDelayExpiry => Sys2Proof.Machine.execStepDelayExpiry s
  | .stepTimeout => Sys2Proof.Machine.execStepTimeout s
  | .bind code lines => Sys2Proof.Machine.execBind code lines s
  | .unbind code => Sys2Proof.Machine.execUnbind code s
  | .closeCall sender => Sys2Proof.Machine.execCloseCall sender s
  | .clearCaptures sender => Sys2Proof.Machine.execClearCaptures sender s
  | .panelInputChange input level => Sys2Proof.Machine.execPanelInputChange input level s
  | .panelStabilityExpiry input => Sys2Proof.Machine.execPanelStabilityExpiry input s
  | .transactionStart => Sys2Proof.Machine.execTransactionStart s
  | .commandComplete => Sys2Proof.Machine.execCommandComplete s
  | .statusComplete bytes => Sys2Proof.Machine.execStatusComplete bytes s
  | .transactionFailed why => Sys2Proof.Machine.execTransactionFailed why s
  | .busStuck => Sys2Proof.Machine.execBusStuck s
  | .busRecoveryEnd => Sys2Proof.Machine.execBusRecoveryEnd s
  | .frameStart => Sys2Proof.Machine.execFrameStart s
  | .frameRelease count midByte frame => Sys2Proof.Machine.execFrameRelease count midByte frame s
  | .readLine sender line => Sys2Proof.Machine.execReadLine sender line s
  | .readCall sender => Sys2Proof.Machine.execReadCall sender s
  | .readPlan sender => Sys2Proof.Machine.execReadPlan sender s
  | .readCaptures sender => Sys2Proof.Machine.execReadCaptures sender s
  | .readEvents sender => Sys2Proof.Machine.execReadEvents sender s
  | .setMask sender mask => Sys2Proof.Machine.execSetMask sender mask s
  | .ackReset sender => Sys2Proof.Machine.execAckReset sender s
  | .softReset sender => Sys2Proof.Machine.execSoftReset sender s
  | .setReporting code mode interval mask => Sys2Proof.Machine.execSetReporting code mode interval mask s
  | .vesselMessageReceived => Sys2Proof.Machine.execVesselMessageReceived s
  | .gapTimerExpiry => Sys2Proof.Machine.execGapTimerExpiry s
  | .transmitEnd => Sys2Proof.Machine.execTransmitEnd s
  | .reportTimerExpiry => Sys2Proof.Machine.execReportTimerExpiry s
  | .readProfile sender record => Sys2Proof.Machine.execReadProfile sender record s
  | .writeProfile sender record bytes => Sys2Proof.Machine.execWriteProfile sender record bytes s
  | .lockProfile sender record => Sys2Proof.Machine.execLockProfile sender record s
  | .commissionProfile sender record => Sys2Proof.Machine.execCommissionProfile sender record s
  | .verifyStore sender => Sys2Proof.Machine.execVerifyStore sender s
  | .writeProgrammingEnd readBack => Sys2Proof.Machine.execWriteProgrammingEnd readBack s
  | .lockProgrammingEnd => Sys2Proof.Machine.execLockProgrammingEnd s
  | .gateOpeningEdge l => Sys2Proof.Machine.execGateOpeningEdge l s
  | .shoreDecodeEnd => Sys2Proof.Machine.execShoreDecodeEnd s
  | .vesselByteReceived byte goodStop => Sys2Proof.Machine.execVesselByteReceived byte goodStop s

end Sys2Proof.Machine
end

