-- ==== Sys2Proof/Machine/TimeBase.lean ====
section
/-! DEFINITION. The 1 ms time base: which events are due, what of the Sequencer's is on its way, and one millisecond of every running
timer (00_scope 4.2; log entries 1, 13, 20, 57, 61). -/

namespace Sys2Proof.Machine

/-- A running timer has run out. -/
def isDue (t : Option Nat) : Bool := t == some 0

/-- The expiry of a line's state timer, by its kind and state (R65, R66, R195). -/
def stateTimerEvent (l : Line) (c : LcuChannel) : List Instr :=
  match c.timer with
  | some ⟨k, 0⟩ =>
    match c.state, k with
    | .attaching, .attach => [.attachExpired l]
    | .easing, .ease => [.easeFailed l]
    | .tensioning, .tension => [.tensionTimeout l]
    | .unlatching, .latch => [.latchStuck l]
    | .tripped, .latch => [.latchStuck l]
    | .rewinding, .rewind => [.rewindTimeout l]
    | .adopting, .latch => [.adoptionLatchExpiry l]
    | _, _ => []
  | _ => []

/-- The events due on a line. -/
def dueOnLine (s : State) (l : Line) : List Instr :=
  let c := s.lmu.get l
  (if isDue c.sampleTimer then [Instr.sampleBoundary l] else [])
  ++ (if isDue c.deadline then [Instr.gateDeadline l] else [])
  ++ (if isDue c.holdTimer then [Instr.holdTimerExpiry l] else [])
  ++ (if isDue (s.drum.get l).stationaryTimer then [Instr.stationaryExpiry l] else [])
  ++ stateTimerEvent l (s.lcu.get l)

/-- The events due in the rest of the part: the flank, delay, step, stability, stuck, gap and report timers, the start of a
transaction (R156) and the check of a complete message (R173). -/
def dueElsewhere (s : State) : List Instr :=
  (if s.repeater.flankTimer = 0 then [Instr.flankExpiry] else [])
  ++ (if s.plan.delayRunning && s.plan.delayRemaining == 0 then [Instr.stepDelayExpiry] else [])
  ++ (if isDue s.plan.stepTimer then [Instr.stepTimeout] else [])
  ++ ([PanelInput.trip, .stop, .rampClear].filter fun i => isDue (panelGet s.sup i).timer).map .panelStabilityExpiry
  ++ (if s.bus.activity == .idle && !s.bus.queue.isEmpty then [Instr.transactionStart] else [])
  ++ (if isDue s.bus.stuckTimer && s.bus.inFlight.isSome then [Instr.busStuck] else [])
  ++ (if s.vessel.complete.isSome then [Instr.vesselMessageReceived] else [])
  ++ (if isDue s.vessel.gapTimer then [Instr.gapTimerExpiry] else [])
  ++ (if isDue s.vessel.reportTimer then [Instr.reportTimerExpiry] else [])

/-- Every event that is due. -/
def dueEvents (s : State) : List Instr := Line.all.flatMap (dueOnLine s) ++ dueElsewhere s

/-- One millisecond of a timer. -/
def tickTimer (t : Option Nat) : Option Nat := t.map (· - 1)

/-- One millisecond of a panel input. -/
def PanelLevel.ticked (p : PanelLevel) : PanelLevel := { p with timer := tickTimer p.timer }

/-- One millisecond of an open call's time, which saturates at 65535 s (R128). -/
def CallRecord.ticked (c : CallRecord) : CallRecord :=
  if c.isOpen then { c with timeMs := min 65535000 (c.timeMs + 1) } else c

/-- The transaction goes on to its present phase or a later one, by a number drawn. In the data phase of a STATUS some of its six
bytes have arrived, and by the stop condition all of them have (R147, R150, R151; log entry 21). -/
def InFlight.advanced (draw : Nat) (f : InFlight) : InFlight :=
  let phase := f.ahead.getD (draw % max 1 f.ahead.length) f.phase
  let missing := 6 - f.received.length
  let arriving :=
    match f.record.kind, phase with
    | .status, .data => draw / 8 % (missing + 1)
    | .status, .stop => missing
    | _, _ => 0
  { f with phase := phase, buffer := f.buffer ++ (List.range arriving).map (Config.busByte draw) }

/-- One millisecond of a transaction in flight. Either a line that the controller needs high stays low, and the stuck timer,
started if it stood still, counts; or the line rises, the timer stops, and the transaction goes on (R157). Which of the two is
the module's, so it is free (log entries 20, 21). -/
def DriveBus.ticked (n : Nat) (b : DriveBus) : DriveBus :=
  match b.inFlight with
  | none => b
  | some f =>
    if Config.choice n then { b with stuckTimer := some (b.stuckTimer.getD 25 - 1) }
    else { b with stuckTimer := none, inFlight := some (f.advanced (Config.order n)) }

/-- One millisecond passes (00_scope 4.2). -/
def tick (s : State) : State :=
  { s with
    lmu := s.lmu.imap fun _ c => { c with
      sampleTimer := tickTimer c.sampleTimer, deadline := tickTimer c.deadline, holdTimer := tickTimer c.holdTimer }
    drum := s.drum.imap fun _ d => { d with stationaryTimer := tickTimer d.stationaryTimer }
    repeater := { s.repeater with flankTimer := s.repeater.flankTimer - 1 }
    lcu := s.lcu.imap fun _ c => { c with timer := c.timer.map fun t => { t with remaining := t.remaining - 1 } }
    plan := { s.plan with
      delayRemaining := if s.plan.delayRunning then s.plan.delayRemaining - 1 else s.plan.delayRemaining
      stepTimer := tickTimer s.plan.stepTimer }
    sup := { s.sup with
      call := s.sup.call.ticked, trip := s.sup.trip.ticked, stop := s.sup.stop.ticked
      rampClear := s.sup.rampClear.ticked }
    bus := s.bus.ticked s.choices
    vessel := { s.vessel with gapTimer := tickTimer s.vessel.gapTimer, reportTimer := tickTimer s.vessel.reportTimer }
    now := s.now + 1
    choices := s.choices + 1 }

/-- The commands of the Sequencer that can reach their lines now: for each line the first on its way to it, behind a mark on its
way (R113, R115, R116). -/
def arriving (s : State) : List Handed :=
  Line.all.filterMap fun l => if (s.lcu.get l).markComing then none else s.handed.find? (·.line == l)

/-- A command of the Sequencer reaches its line (R115, R116), and the transmitter takes what is due (R175; log entry 30). -/
def arrive (h : Handed) (s : State) : State := takeTx (takeHanded { s with handed := s.handed.erase h } h)

/-- What can come on an empty queue before the next millisecond: an event that is due, or a plan mark or a command of the
Sequencer that reaches its line. -/
inductive Due where
  | event (i : Instr)
  | mark (l : Line)
  | command (h : Handed)
deriving DecidableEq, Repr

/-- All of it. -/
def allDue (s : State) : List Due :=
  (dueEvents s).map .event ++ (Line.all.filter fun l => (s.lcu.get l).markComing).map .mark ++ (arriving s).map .command

/-- The one that is taken of what is due: a free choice where there are several (R67, log entries 13, 57). -/
def pick (n : Nat) : List Due → Option Due
  | [] => none
  | [i] => some i
  | i :: j :: rest => some ((i :: j :: rest).getD (Config.order n % (rest.length + 2)) i)

end Sys2Proof.Machine
end

