-- ==== Sys2Proof/Machine/Step.lean ====
section
/-! DEFINITION. One step: the command at the front of the queue, or on an empty queue the time base. -/

namespace Sys2Proof.Machine

/-- What happens on an empty queue: an event that is due, or a plan mark or a command of the Sequencer that reaches its line, else
one millisecond; nothing while a reset is in progress (log entries 1, 57, 61). -/
def idle (s : State) : Host.Outcome State Fault Refusal :=
  if s.resetting.isSome then .next s
  else
    match pick s.choices (allDue s) with
    | some (.event i) => exec i s.drawn
    | some (.mark l) => .next (takeMark l s.drawn)
    | some (.command h) => .next (arrive h s.drawn)
    | none => .next (tick s)

/-- One step of the part. -/
def step (s : State) : Host.Outcome State Fault Refusal :=
  match s.pending with
  | i :: rest => exec i { s with pending := rest }
  | [] => idle s

/-- The command that a word spells, put at the front of the queue; the table gives its rows no bits, so no word spells one. -/
def State.withFetchWord (s : State) (nbits w : Nat) : State :=
  match decodeTableWord nbits w with
  | some i => { s with pending := i :: s.pending }
  | none => s

end Sys2Proof.Machine
end

