-- ==== Sys2Proof/Safety.lean ====
section
/-! DEFINITION. The terms statements are made in: what a command leaves alone, how a request is answered, what an entry to a
line state is, and the invariants of the part. -/

namespace Sys2Proof.Machine

/-! ## What stays -/

/-- What no change of a line, a plan or the call touches: the queue, time, the reset, the pins, the panel levels, the stored
records and their locks, the bus activity, and the ports apart from their event sets, their request and their reply. -/
structure Outside where
  pending        : List Instr
  now            : Nat
  resetting      : Option ResetCause
  resetCause     : ResetCause
  pins           : Pins
  trip           : PanelLevel
  stop           : PanelLevel
  rampClear      : PanelLevel
  stored         : Records StoredRecord
  commissioned   : Records Bool
  sessionLock    : Records Bool
  programming    : Programming
  activity       : BusActivity
  stuckTimer     : Option Nat
  frameOut       : Option FrameOut
  byteCount      : Nat
  abandonedCount : Nat
  shoreMask      : KindSet
  shoreAcked     : Bool
  assembler      : Assembler
  gapTimer       : Option Nat
  framingErrors  : Nat
  mode           : ReportMode
  interval       : Nat
  vesselMask     : KindSet
  reportTimer    : Option Nat
  vesselAcked    : Bool
deriving DecidableEq, Repr

/-- These items of a state. -/
def State.outside (s : State) : Outside where
  pending := s.pending
  now := s.now
  resetting := s.resetting
  resetCause := s.resetCause
  pins := s.pins
  trip := s.sup.trip
  stop := s.sup.stop
  rampClear := s.sup.rampClear
  stored := s.store.stored
  commissioned := s.store.commissioned
  sessionLock := s.store.sessionLock
  programming := s.store.programming
  activity := s.bus.activity
  stuckTimer := s.bus.stuckTimer
  frameOut := s.shore.frameOut
  byteCount := s.shore.byteCount
  abandonedCount := s.shore.abandonedCount
  shoreMask := s.shore.mask
  shoreAcked := s.shore.acked
  assembler := s.vessel.assembler
  gapTimer := s.vessel.gapTimer
  framingErrors := s.vessel.framingErrors
  mode := s.vessel.mode
  interval := s.vessel.interval
  vesselMask := s.vessel.mask
  reportTimer := s.vessel.reportTimer
  vesselAcked := s.vessel.acked

/-- The items of one line, the LMU channel's view of its assignment apart. -/
structure LineItems where
  lcu  : LcuChannel
  det  : DetectorChannel
  drum : DrumChannel
  reg  : RegulatorChannel
  lmu  : LmuChannel
  view : LineView
deriving DecidableEq, Repr

/-- These items of a line. -/
def State.lineItems (s : State) (l : Line) : LineItems where
  lcu := s.lcu.get l
  det := s.det.get l
  drum := s.drum.get l
  reg := s.reg.get l
  lmu := { s.lmu.get l with assignedView := false }
  view := s.sup.view.get l

/-- Requests and replies in the ports: the Shore Port's slot and latches, and the Vessel Port's message, reply and
transmitter. -/
def State.sameTraffic (s t : State) : Prop :=
  t.shore.slot = s.shore.slot ∧ t.shore.collision = s.shore.collision ∧ t.shore.overrun = s.shore.overrun
  ∧ t.shore.abandonedSeen = s.shore.abandonedSeen ∧ t.vessel.waiting = s.vessel.waiting
  ∧ (s.vessel.tx ≠ .idle → t.vessel.tx = s.vessel.tx ∧ t.vessel.replyPlace = s.vessel.replyPlace
      ∧ t.vessel.overrunFlag = s.vessel.overrunFlag)

/-- The frame of a change of one line, the call apart: other lines, the plan and its commands on their way, the repeater, the
store, the bus apart from the line's COMMAND, the captures and the rest stay. -/
structure LineFrame (l : Line) (s t : State) : Prop where
  outside  : t.outside = s.outside
  others   : ∀ m, m ≠ l → t.lineItems m = s.lineItems m
  plan     : t.plan = s.plan
  handed   : t.handed = s.handed
  repeater : t.repeater = s.repeater
  store    : t.store = s.store
  inFlight : t.bus.inFlight = s.bus.inFlight
  modules  : t.bus.modules = s.bus.modules
  queue    : t.bus.queue.filter (fun r => !r.isCommand l) = s.bus.queue.filter (fun r => !r.isCommand l)
  captures : t.sup.firstOverload = s.sup.firstOverload ∧ t.sup.firstFault = s.sup.firstFault
             ∧ t.sup.overloadCount = s.sup.overloadCount ∧ t.sup.faultCount = s.sup.faultCount
  events   : ∀ m, m ≠ l → t.shore.events.lines.get m = s.shore.events.lines.get m

/-- The frame of a change of one line: that of `LineFrame`, and once adoption is complete, of the call record all but the phase and
the made-fast time, and every assignment. `CallFollows` says how the phase follows the line. -/
structure OnlyLine (l : Line) (s t : State) : Prop extends LineFrame l s t where
  call : s.sup.adoptionComplete = true →
         t.sup.adoptionComplete = true
         ∧ t.sup.call = { s.sup.call with phase := t.sup.call.phase, madeFastTime := t.sup.call.madeFastTime }
         ∧ ∀ m, (t.lmu.get m).assignedView = (s.lmu.get m).assignedView

/-- `t` is `s` but for the ports: events, replies and reports. -/
structure OnlyPorts (s t : State) : Prop where
  rest    : t = { s with shore := t.shore, vessel := t.vessel }
  outside : t.outside = s.outside

/-- `t` is `s` but for one event in the pending sets, and a request's passage through the ports (R171, R178). -/
structure OnlyEvent (k : EventKind) (tag : Tag) (s t : State) : Prop where
  rest    : t = { s with shore := t.shore, vessel := t.vessel }
  outside : t.outside = s.outside
  shore   : t.shore.events = s.shore.events.add k tag
  attn    : t.shore.attnLow = (t.shore.events.berth.resetSeen || t.shore.events.meets t.shore.mask)
  vessel  : s.vessel.tx ≠ .idle → vesselReceives k = true → t.vessel.events = s.vessel.events.add k tag

/-! ## Requests -/

/-- The sender can send the request now: the Shore Port has no other request in its slot; the Vessel Port has no message
waiting, no reply in its place, and nothing that its transmitter would take first. -/
def free (s : State) (sender : Sender) (r : Request) : Bool :=
  match sender with
  | .shore => match s.shore.slot with | .pending f => f == ShoreFrame.of r | .ready _ => true | .empty => true
  | .vessel _ => s.vessel.waiting.isNone && s.vessel.replyPlace.isNone && (s.vessel.tx != .idle || !s.vessel.reportOwed)

/-- The checks of R163 in their order: the first of them that the request fails gives the code (R163, R164, R165). The kinds that
the shore may not send are the model's reading (log entry 22). -/
def failsFirst (s : State) (sender : Sender) (r : Request) (formOk : Bool) (code : ReplyCode) : Prop :=
  let ackedFlag := match sender with | .shore => s.shore.acked | .vessel _ => s.vessel.acked
  let unknown := match r with
    | .unknown _ _ => True | .unknownCommand _ _ => True
    | .bind _ => sender = .shore | .unbind => sender = .shore | .setReporting _ _ _ => sender = .shore
    | _ => False
  let shoreOnly := sender ≠ .shore ∧ match r with
    | .bind _ => False | .unbind => False | .tripAll => False | .planSubmit _ => False | .planHold => False
    | .planResume => False | .planAbort => False | .readLine _ => False | .readCall => False
    | .setReporting _ _ _ => False | .ackReset => False
    | .lineCommand _ c => c = .rebase ∨ c = .zero ∨ c = .clearFault
    | _ => True
  let badForm := formOk = false ∨ match r with | .setReporting mode _ _ => mode = .other | _ => False
  let named : Option Byte := match r with
    | .lineCommand b _ => some b | .readLine b => some b | .selectRepeater x => x | _ => none
  let badLine := ∃ b, named = some b ∧ 8 ≤ b.toNat
  let disabled := ∃ b l, named = some b ∧ lineOfByte b = some l ∧ s.stateOf l = .disabled
  let exempt := match r with
    | .readLine _ => True | .readCall => True | .readPlan => True | .readCaptures => True | .readEvents => True
    | .readProfile _ => True | .ackReset => True | .tripAll => True | .lineCommand _ c => c = .trip | _ => False
  let isBound := match sender with
    | .shore => True
    | .vessel v => s.sup.call.phase ≠ .idle ∧ s.sup.call.vesselCode = some v ∧ v ≠ 0#16
  let needsBinding := match r with
    | .bind _ => False | .readLine _ => False | .readCall => False | .ackReset => False | .setReporting _ _ _ => False
    | _ => True
  let unassigned := sender ≠ .shore ∧ match r with
    | .lineCommand b _ => ∃ l, lineOfByte b = some l ∧ s.sup.call.assigned.get l = false
    | _ => False
  (unknown ∧ code = .unknownKind)
  ∨ (¬ unknown ∧ shoreOnly ∧ code = .shoreOnly)
  ∨ (¬ unknown ∧ ¬ shoreOnly ∧ badForm ∧ code = .badFrame)
  ∨ (¬ unknown ∧ ¬ shoreOnly ∧ ¬ badForm ∧ badLine ∧ code = .badLine)
  ∨ (¬ unknown ∧ ¬ shoreOnly ∧ ¬ badForm ∧ disabled ∧ code = .lineDisabled)
  ∨ (¬ unknown ∧ ¬ shoreOnly ∧ ¬ badForm ∧ ¬ badLine ∧ ¬ disabled ∧ ¬ exempt ∧ ackedFlag = false
      ∧ code = .resetNotAcked)
  ∨ (¬ unknown ∧ ¬ shoreOnly ∧ ¬ badForm ∧ ¬ badLine ∧ ¬ disabled ∧ (exempt ∨ ackedFlag = true)
      ∧ needsBinding ∧ ¬ isBound ∧ code = .notBound)
  ∨ (¬ unknown ∧ ¬ shoreOnly ∧ ¬ badForm ∧ ¬ badLine ∧ ¬ disabled ∧ (exempt ∨ ackedFlag = true)
      ∧ isBound ∧ unassigned ∧ code = .notAssigned)

/-- No reset is in progress, and the request can be sent and passes every check of R163. -/
def admitted (s : State) (sender : Sender) (r : Request) : Bool :=
  s.resetting.isNone && free s sender r && (refusal s sender true r).isNone

/-- The Shore Port's slot holds the reply to the frame's request, with its kind and line and the latches, which are cleared
(R169). -/
def Responded (f : ShoreFrame) (reply : Reply) (s t : State) : Prop :=
  t.shore.slot = .ready ⟨f.kind, f.line, s.shore.collision, s.shore.overrun, s.shore.abandonedSeen, reply⟩
  ∧ t.shore.collision = false ∧ t.shore.overrun = false ∧ t.shore.abandonedSeen = false
  ∧ t.vessel.waiting = s.vessel.waiting

/-- The transaction has not gone past every phase in which the acknowledge can be missing so: a STATUS has two address bytes, and
its data phase has none that can be refused (R150, R151). -/
def stillAhead (f : InFlight) : NoAck → Prop
  | .absent => f.phase = .start ∨ f.phase = .address
      ∨ (f.record.kind = .status ∧ (f.phase = .index ∨ f.phase = .repeatedStart ∨ f.phase = .readAddress))
  | .indexRefused => f.phase = .start ∨ f.phase = .address ∨ f.phase = .index
  | .dataRefused => f.record.kind ≠ .status
      ∧ (f.phase = .start ∨ f.phase = .address ∨ f.phase = .index ∨ f.phase = .data)

/-- The sender has been given the reply: in the Shore Port's slot with the latches (R169), or as a Vessel Port reply, sent at
once where the transmitter is IDLE (R174, R175). -/
def Answered (sender : Sender) (r : Request) (reply : Reply) (s t : State) : Prop :=
  match sender with
  | .shore => Responded (ShoreFrame.of r) reply s t
  | .vessel code =>
    t.vessel.waiting = none
    ∧ (let m : VesselReply := ⟨t.store.workingBerth.berthCode, code, replyKind (vesselKind r), reply⟩
       if s.vessel.tx = .idle then t.vessel.tx = .sending (.reply m) ∧ t.vessel.replyPlace = none
       else t.vessel.tx = s.vessel.tx ∧ t.vessel.replyPlace = some m)
    ∧ t.shore.slot = s.shore.slot ∧ t.shore.collision = s.shore.collision ∧ t.shore.overrun = s.shore.overrun
    ∧ t.shore.abandonedSeen = s.shore.abandonedSeen

/-! ## Events and line states -/

/-- The event is pending at the Shore Port, and at the Vessel Port if the vessel receives the kind and no report could have
taken it at once (R177, R178). -/
def Raised (k : EventKind) (tag : Tag) (s t : State) : Prop :=
  (t.shore.events.get tag).has k = true
  ∧ (vesselReceives k = true → s.vessel.tx ≠ .idle → (t.vessel.events.get tag).has k = true)

/-- The line's COMMAND for a new intent: none while the four items stay the same and the intent is not urgent; else its record
in the queue carries the new intent, URGENT where the intent is (R62, R154). -/
def Commanded (l : Line) (i : Intent) (s t : State) : Prop :=
  if i.urgent = false ∧ (s.lcu.get l).intent.any (·.same i) = true then t.bus.queue = s.bus.queue
  else ∃ r ∈ t.bus.queue, r.line = l ∧ r.kind = .command i ∧ (i.urgent = true → r.urgent = true)

/-- The rate class of a channel, by the line's state, whether a debounce counter is non-zero, and the surge flag: the table of
R7. -/
def classOf (st : LineState) (counters surge : Bool) : Option RateClass :=
  if st = .disabled then none
  else if st = .stowed ∨ st = .slackOut ∨ st = .fault then some .quiet
  else if st = .halted ∨ (st = .holding ∧ counters = false ∧ surge = false) then some .watch
  else some .active

/-- The line is in the latched family (00_scope 4.3). -/
def inFamily (st : LineState) : Bool := st == .holding || st == .rendering || st == .recovering

/-- The state watches the condition, surge apart (R26). -/
def watches (st : LineState) : Condition → Bool
  | .render => st == .holding
  | .slack => st == .holding
  | .target => st == .tensioning || st == .recovering
  | .release => st == .easing
  | .snag => st == .rewinding

/-- Every line of a set, which is not empty, is in the latched family in the Supervisor's view: what Made Fast asks of the
assigned set (R135). -/
def heldFast (lines : LineSet) (s : State) : Prop :=
  (∃ m, lines.get m = true) ∧ ∀ m, lines.get m = true → inFamily (s.sup.view.get m).state = true

/-- The Depart condition in the Supervisor's line view: every line is DISABLED, off the vessel, halted with its latch at REST, or
in FAULT with its latch last sensed OPEN (R135). -/
def departHolds (s : State) : Prop :=
  ∀ l, let v := s.sup.view.get l
    v.state = .disabled ∨ v.state = .stowed ∨ v.state = .slackOut ∨ v.state = .rewinding
    ∨ (v.state = .halted ∧ v.latchIntent = some .rest) ∨ (v.state = .fault ∧ v.lastLatch = some .opened)

/-- The call after one state-change notice of a line to a state other than DISABLED, the surge count apart (R132, R135, R146,
R197). An ARRIVING call is MOORED, its made-fast time recorded, once every assigned line is latched. A MOORED one lets go where
an assigned line goes to EASING, UNLATCHING or TRIPPED. One that lets go is CLEAR once the Depart condition holds. Where no line
is ADOPTING any more, adoption is complete, and a call is opened, with vessel code 0, over the lines of the latched family, if
there is one; its surge count and the call number are the reset's (log entry 54). Both permits are what their conditions give,
and a change of either raises PERMIT (R136 to R138). -/
structure CallFollows (l : Line) (s t : State) : Prop where
  adoption : t.sup.adoptionComplete = true ↔
               s.sup.adoptionComplete = true ∨ ∀ m, (t.sup.view.get m).state ≠ .adopting
  phases   : let new := (t.sup.view.get l).state
             let c := { s.sup.call with surgeCount := t.sup.call.surgeCount }
             let opens := s.sup.adoptionComplete = false ∧ (∀ m, (t.sup.view.get m).state ≠ .adopting)
               ∧ ∃ m, inFamily (t.sup.view.get m).state = true
             let letsGo := c.phase = .moored ∧ c.assigned.get l = true ∧ (s.sup.view.get l).state ≠ new
               ∧ (new = .easing ∨ new = .unlatching ∨ new = .tripped)
             let made := c.phase = .arriving ∧ heldFast c.assigned t
             let gone := c.phase = .lettingGo ∧ departHolds t
             (opens →
               t.sup.call = ⟨.moored, some 0, 0, t.sup.view.imap fun _ v => inFamily v.state, 0, c.surgeCount, some 0⟩
               ∧ Raised .call .berth s t ∧ ∀ m, (t.lmu.get m).assignedView = inFamily (t.sup.view.get m).state)
             ∧ (¬ opens → ∀ m, (t.lmu.get m).assignedView = (s.lmu.get m).assignedView)
             ∧ (¬ opens → letsGo → t.sup.call = { c with phase := .lettingGo } ∧ Raised .call .berth s t)
             ∧ (¬ opens → made →
                 t.sup.call = { c with phase := .moored, madeFastTime := some (c.madeFastTime.getD (c.timeMs / 1000)) }
                 ∧ Raised .call .berth s t)
             ∧ (¬ opens → gone → t.sup.call = { c with phase := .clear } ∧ Raised .call .berth s t)
             ∧ (¬ opens → ¬ letsGo → ¬ made → ¬ gone → t.sup.call = c)
  permits  : t.sup.rampPermit = rampCondition t.sup ∧ t.sup.departPermit = departPermitCondition t.sup
             ∧ (t.sup.rampPermit ≠ s.sup.rampPermit ∨ t.sup.departPermit ≠ s.sup.departPermit →
                 Raised .permit .berth s t)

/-- The call record stays, the surge count apart, and so does adoption complete: no notice moves the phase. -/
def CallStays (s t : State) : Prop :=
  t.sup.call = { s.sup.call with surgeCount := t.sup.call.surgeCount } ∧ t.sup.adoptionComplete = s.sup.adoptionComplete

/-- The Condition Detector after a notice of a state: a condition watched in it keeps its counter, every active flag is clear,
and the surge counter and flag last only in the latched family (R27). -/
def Retained (l : Line) (new : LineState) (s t : State) : Prop :=
  (∀ k, (t.det.get l).counters.get k = (if watches new k then (s.det.get l).counters.get k else 0)
    ∧ (t.det.get l).active.get k = false)
  ∧ (t.det.get l).surgeCounter = (if inFamily new then (s.det.get l).surgeCounter else 0)
  ∧ (t.det.get l).surgeFlag = (inFamily new && (s.det.get l).surgeFlag)

/-- The line has entered a state (R60): its record, its intent and COMMAND, its timer, the notices at the other blocks: their
views of the line, the rate class (R7), the detector (R27), the call (R132); and LINE_STATE. -/
structure Entered (l : Line) (new : LineState) (resume : Option Resume) (intent : Intent) (timer : Option StateTimer)
    (s t : State) : Prop where
  state   : (t.lcu.get l).state = new
  resume_ : (t.lcu.get l).resume = resume
  intent_ : (t.lcu.get l).intent = some intent
  timer_  : (t.lcu.get l).timer = timer
  command : Commanded l intent s t
  lmuView : (t.lmu.get l).stateView = new
  detView : (t.det.get l).stateView = new
  regView : (t.reg.get l).stateView = new
  supView : (t.sup.view.get l).state = new
  latches : (t.sup.view.get l).latchIntent = some intent.latch
            ∧ (t.sup.view.get l).lastLatch = (t.lcu.get l).lastStatus.map (·.latch)
  rate    : (t.lmu.get l).rateClass = classOf new (t.lmu.get l).counterView (t.lmu.get l).surgeView
  kept    : Retained l new s t
  call    : CallFollows l s t
  surges  : t.sup.call.surgeCount = s.sup.call.surgeCount
  event   : Raised .lineState (.line l) s t

/-- A fault of a line is counted, and captured if none is, stamped with the open call's time after the line's own change (R144;
log entry 60); the overload's capture and count stay. -/
def FaultCaptured (l : Line) (cause : FaultCause) (s t : State) : Prop :=
  t.sup.faultCount = min 15 (s.sup.faultCount + 1)
  ∧ t.sup.firstFault = some (s.sup.firstFault.getD
      ⟨l, cause, if t.sup.call.phase = .idle then none else some (t.sup.call.timeMs / 1000)⟩)
  ∧ t.sup.firstOverload = s.sup.firstOverload ∧ t.sup.overloadCount = s.sup.overloadCount

/-- The items of the LCU channel that an entry to a state leaves alone. -/
structure LcuKept (l : Line) (s t : State) : Prop where
  lock     : (t.lcu.get l).lockPosition = (s.lcu.get l).lockPosition
  target   : (t.lcu.get l).workingTarget = (s.lcu.get l).workingTarget
  render   : (t.lcu.get l).renderInhibited = (s.lcu.get l).renderInhibited
  recover  : (t.lcu.get l).recoverInhibited = (s.lcu.get l).recoverInhibited
  status   : (t.lcu.get l).lastStatus = (s.lcu.get l).lastStatus
  mark     : (t.lcu.get l).planMark = (s.lcu.get l).planMark ∧ (t.lcu.get l).markComing = (s.lcu.get l).markComing
  panel    : (t.lcu.get l).panel = (s.lcu.get l).panel
  softZone : (t.lcu.get l).softZoneView = (s.lcu.get l).softZoneView

/-- The line is not one whose notices a RUNNING plan acts on: the plan is not RUNNING with its step ISSUED, or the line is not
of the current step (R118, R119). -/
def outOfStep (s : State) (l : Line) : Bool :=
  !(s.plan.state == .running && s.plan.phase == some .issued && s.plan.currentLines.get l)

/-- Every block holds the same state for the line: the notices of R60 have reached them. -/
def viewsAgree (s : State) (l : Line) : Bool :=
  let st := s.stateOf l
  (s.lmu.get l).stateView == st && (s.det.get l).stateView == st && (s.reg.get l).stateView == st
    && (s.sup.view.get l).state == st

/-- T_f of a seeded channel after a good sample (R9, R10, R11). -/
def nextTF (s : State) (l : Line) (ticks : Nat) : Int :=
  let c := s.lmu.get l
  let f16 := 128000000 * c.gUsed / ticks
  let tRaw := if f16 ≤ c.workingZero16 then 0 else min 20000 ((f16 - c.workingZero16) * (s.profile l).span / 4096)
  (c.fAcc + (((tRaw : Int) * 256 - c.fAcc) >>> (s.profile l).betaF)) / 256

/-- The periods that a gate of a class counts (R2), and the sample period of a class in ms (R5). -/
def gatePeriods (code : Nat) : RateClass → Nat
  | .quiet => 2 ^ (code + 1)
  | .watch => 2 ^ (code + 1)
  | .active => max 2 (2 ^ (code + 1) / 8)

@[inherit_doc gatePeriods]
def periodMs : RateClass → Nat
  | .quiet => 200
  | .watch => 50
  | .active => 10

/-- The channel with a gate just started in a class (R2). -/
def startedIn (p : LineProfile) (k : RateClass) (c : LmuChannel) : LmuChannel :=
  { c with
    gate := .armed, tickCount := 0, deferred := false, deadline := some 100, gUsed := gatePeriods p.gateCode k
    sampleTimer := some (periodMs k) }

/-- Some debounce counter of the channel is non-zero (R40). -/
def counting (d : DetectorChannel) : Bool :=
  d.counters.render != 0 || d.counters.slack != 0 || d.counters.target != 0 || d.counters.release != 0
    || d.counters.snag != 0 || d.surgeCounter != 0

/-- The sample agrees with a condition's test (R28). -/
def agrees (s : State) (l : Line) (tF : Int) : Condition → Bool
  | .render => decide (((s.profile l).renderLimit : Int) ≤ tF)
  | .slack => decide (tF ≤ ((s.lcu.get l).workingTarget * (s.profile l).slackRatio / 256 : Nat))
  | .target => decide (((s.lcu.get l).workingTarget : Int) ≤ tF)
  | .release => decide (tF ≤ ((s.profile l).releaseTension : Int))
  | .snag => decide (((s.profile l).snagLimit : Int) ≤ tF)

/-- The sample agrees with the test that the surge flag calls for: the start test while it is clear, the end test while it is set
(R28, R36, R37). -/
def surgeAgrees (s : State) (l : Line) (delta : Int) : Bool :=
  let p := s.profile l
  if (s.det.get l).surgeFlag then decide (delta.natAbs ≤ p.surgeThreshold * (256 - p.surgeHyst) / 256)
  else decide (p.surgeThreshold ≤ delta.natAbs)

/-- What a gate's end computes before anything takes the sample: a good one of `ticks` ticks, or a NO_SIGNAL sample where there
are none (R9 to R14, R16, R18, R19). -/
def measured (s : State) (l : Line) (ticks : Option Nat) : LmuChannel × Int :=
  let c := s.lmu.get l
  let p := s.profile l
  let held (n : Nat) (f16 tRaw misses : Nat) : LmuChannel :=
    { c with gate := .idle, deadline := none, tickCount := n, f16 := f16, tRaw := tRaw, missCount := misses }
  let runs (d : LmuChannel) : LmuChannel × Int :=
    let fAcc := c.fAcc + (((d.tRaw : Int) * 256 - c.fAcc) >>> p.betaF)
    let tF := fAcc / 256
    let delta := tF - c.rAcc / 256
    let d := { d with fAcc := fAcc }
    (if c.stateView = .rendering ∨ c.stateView = .recovering then d
     else if c.stateView = .holding then
       if (delta.natAbs : Int) < p.haltThreshold ∧ c.surgeView = false then
         { d with rAcc := c.rAcc + ((tF * 256 - c.rAcc) >>> p.betaR), holdTimer := none }
       else { d with holdTimer := if c.holdTimer = none then some (p.haltLimit * 1000) else c.holdTimer }
     else { d with rAcc := tF * 256 }, delta)
  match ticks with
  | some n =>
    let f16 := 128000000 * c.gUsed / n
    let tRaw := if f16 ≤ c.workingZero16 then 0 else min 20000 ((f16 - c.workingZero16) * p.span / 4096)
    let d := held n f16 tRaw 0
    if c.seeded then runs d else ({ d with fAcc := (tRaw : Int) * 256, rAcc := (tRaw : Int) * 256, seeded := true }, 0)
  | none =>
    let d := held 0 c.f16 c.tRaw (min 255 (c.missCount + 1))
    if c.seeded then runs d else (d, 0)

/-- A good sample can complete on the line's seeded channel, and the blocks agree on the line's state. -/
def sampleReady (s : State) (l : Line) (ticks : BitVec 24) : Bool :=
  s.resetting.isNone && (s.lmu.get l).gate == .counting && ticks.toNat != 0 && (s.lmu.get l).seeded && viewsAgree s l

/-- The command of a line command in LINE_COMMAND's form (4.4). -/
def lineRow (sender : Sender) (line : Byte) : LineCommand → Instr
  | .attach => .attach sender line
  | .cancel => .cancel sender line
  | .release => .release sender line
  | .trip => .trip sender line
  | .rewind => .rewind sender line
  | .resume => .resume sender line
  | .setTarget tension => .setTarget sender line tension
  | .rebase => .rebase sender line
  | .zero => .zero sender line
  | .clearFault => .clearFault sender line

/-- `t` is `s` but for a request's passage through the ports: the events and everything else stay. -/
structure OnlyReply (s t : State) : Prop where
  rest    : t = { s with shore := t.shore, vessel := t.vessel }
  outside : t.outside = s.outside
  events  : t.shore.events = s.shore.events
  attn    : t.shore.attnLow = s.shore.attnLow
  vessel  : s.vessel.tx ≠ .idle → t.vessel.events = s.vessel.events

/-- What a sample does to a zero capture: the record, the working zero16 and the event. A good sample of a STOWED line is added, the
sixteenth judged against the stored zero16; a NO_SIGNAL sample ends the capture (R22, R23). -/
def captured (s : State) (l : Line) (good : Bool) (f16 : Nat) : Option ZeroCapture × Nat × Option EventKind :=
  let c := s.lmu.get l
  let p := s.profile l
  match c.zeroCapture with
  | none => (none, c.workingZero16, none)
  | some z =>
    if good = false then (none, c.workingZero16, some .zeroError)
    else if c.stateView ≠ .stowed then (some z, c.workingZero16, none)
    else if z.count < 15 then (some ⟨z.count + 1, z.sum + f16⟩, c.workingZero16, none)
    else
      let candidate := (z.sum + f16) / 16
      if ((candidate : Int) - p.zero16).natAbs ≤ p.zeroBand then (none, candidate, some .zeroDone)
      else (none, c.workingZero16, some .zeroError)

/-- A channel of the Condition Detector after an evaluated sample that confirms nothing: an agreeing sample raises a watched
condition's counter by one and one that does not sets it to 0, and clears the condition's active flag; the surge counter goes
likewise in the latched family (R31, R32, R36, R37). -/
def counted (s : State) (l : Line) (tF delta : Int) : DetectorChannel :=
  let d := s.det.get l
  let st := s.stateOf l
  { d with
    counters := Conditions.ofFn fun k =>
      if watches st k then if agrees s l tF k then d.counters.get k + 1 else 0 else d.counters.get k
    active := Conditions.ofFn fun k => d.active.get k && (!watches st k || agrees s l tF k)
    surgeCounter := if inFamily st then if surgeAgrees s l delta then d.surgeCounter + 1 else 0 else d.surgeCounter }

/-! ## The time base -/

/-- One millisecond has passed (00_scope 4.2): every running timer counts one down, an open call's time one up, at most 65535 s
(R128), and the part's own clock goes on. A transaction in flight either has its stuck timer count, or has the lines rise and goes
on to a phase it has not gone past, bytes of a STATUS arriving behind those in its buffer: which of the two is free (R157; log
entries 20, 21). Everything else stays but the free choices. -/
def MillisecondPassed (s t : State) : Prop :=
  let down (n : Option Nat) : Option Nat := n.map fun k => k - 1
  let level (p : PanelLevel) : PanelLevel := ⟨p.level, down p.timer⟩
  let bus := t.bus
  let c := s.sup.call
  (∀ l, t.lmu.get l = { s.lmu.get l with
          sampleTimer := down (s.lmu.get l).sampleTimer, deadline := down (s.lmu.get l).deadline
          holdTimer := down (s.lmu.get l).holdTimer }
        ∧ t.drum.get l = { s.drum.get l with stationaryTimer := down (s.drum.get l).stationaryTimer }
        ∧ t.lcu.get l = { s.lcu.get l with
            timer := (s.lcu.get l).timer.map fun x => ⟨x.kind, x.remaining - 1⟩ })
  ∧ (match s.bus.inFlight with
     | none => bus = s.bus
     | some f =>
       bus = { s.bus with stuckTimer := some (s.bus.stuckTimer.getD 25 - 1) }
       ∨ ∃ g : InFlight, bus = { s.bus with stuckTimer := none, inFlight := some g }
           ∧ g = { f with phase := g.phase, buffer := g.buffer } ∧ f.buffer <+: g.buffer
           ∧ (g.buffer ≠ f.buffer → f.record.kind = .status) ∧ ∀ why, stillAhead g why → stillAhead f why)
  ∧ t = { s with
      lmu := t.lmu, drum := t.drum, lcu := t.lcu, bus := bus, choices := t.choices, now := s.now + 1
      repeater := { s.repeater with flankTimer := s.repeater.flankTimer - 1 }
      plan := { s.plan with
        delayRemaining := s.plan.delayRemaining - (if s.plan.delayRunning then 1 else 0)
        stepTimer := down s.plan.stepTimer }
      sup := { s.sup with
        call := { c with timeMs := if c.phase = .idle then c.timeMs else min 65535000 (c.timeMs + 1) }
        trip := level s.sup.trip, stop := level s.sup.stop, rampClear := level s.sup.rampClear }
      vessel := { s.vessel with gapTimer := down s.vessel.gapTimer, reportTimer := down s.vessel.reportTimer } }

/-- An event of the part's own is due: a running timer stands at 0, in the state that its expiry is for; a record waits for an idle
bus (R156); or a message is complete (R173). -/
def dueNow (s : State) : Instr → Prop
  | .sampleBoundary l => (s.lmu.get l).sampleTimer = some 0
  | .gateDeadline l => (s.lmu.get l).deadline = some 0
  | .holdTimerExpiry l => (s.lmu.get l).holdTimer = some 0
  | .stationaryExpiry l => (s.drum.get l).stationaryTimer = some 0
  | .attachExpired l => s.stateOf l = .attaching ∧ (s.lcu.get l).timer = some ⟨.attach, 0⟩
  | .easeFailed l => s.stateOf l = .easing ∧ (s.lcu.get l).timer = some ⟨.ease, 0⟩
  | .tensionTimeout l => s.stateOf l = .tensioning ∧ (s.lcu.get l).timer = some ⟨.tension, 0⟩
  | .latchStuck l => (s.stateOf l = .unlatching ∨ s.stateOf l = .tripped) ∧ (s.lcu.get l).timer = some ⟨.latch, 0⟩
  | .rewindTimeout l => s.stateOf l = .rewinding ∧ (s.lcu.get l).timer = some ⟨.rewind, 0⟩
  | .adoptionLatchExpiry l => s.stateOf l = .adopting ∧ (s.lcu.get l).timer = some ⟨.latch, 0⟩
  | .flankExpiry => s.repeater.flankTimer = 0
  | .stepDelayExpiry => s.plan.delayRunning = true ∧ s.plan.delayRemaining = 0
  | .stepTimeout => s.plan.stepTimer = some 0
  | .panelStabilityExpiry .trip => s.sup.trip.timer = some 0
  | .panelStabilityExpiry .stop => s.sup.stop.timer = some 0
  | .panelStabilityExpiry .rampClear => s.sup.rampClear.timer = some 0
  | .transactionStart => s.bus.activity = .idle ∧ s.bus.queue ≠ []
  | .busStuck => s.bus.inFlight ≠ none ∧ s.bus.stuckTimer = some 0
  | .vesselMessageReceived =>
    ∃ bytes, s.vessel.assembler = .assembling bytes ∧ 2 ≤ bytes.length ∧ bytes.length = (bytes.getD 1 0#8).toNat + 4
  | .gapTimerExpiry => s.vessel.gapTimer = some 0
  | .reportTimerExpiry => s.vessel.reportTimer = some 0
  | _ => False

/-! ## Plans -/

/-- A submitted step passes the five tests of R112, the steps before it given. -/
def goodStep (s : State) (earlier : List PlanStepField) (f : PlanStepField) : Prop :=
  (∃ l, f.lines.get l = true)
  ∧ (∀ l, f.lines.get l = true →
      s.sup.call.assigned.get l = true ∧ (∀ e ∈ earlier, e.lines.get l = false)
      ∧ (s.stateOf l = .holding ∨ s.stateOf l = .rendering ∨ s.stateOf l = .recovering))
  ∧ f.mode ≠ .other

/-- A submitted step as the record holds it: the delay clamped to 120 half-seconds (R111). -/
def heldStep (f : PlanStepField) : PlanStep :=
  ⟨f.lines, min 120 f.delay.toNat, if f.mode = .trip then .trip else .ease⟩

/-- The intent that a step's command gives a line: RELEASE an easing one, TRIP a tripped one (R61, R115). -/
def stepIntent (s : State) (l : Line) : StepMode → Intent
  | .ease => ⟨.modulate, .stop, (s.profile l).easeSpeed, .hold, false⟩
  | .trip => ⟨.apply, .stop, 0, .release, true⟩

/-- The timer that a step's command starts (R64). -/
def stepTimerOf (s : State) (l : Line) : StepMode → StateTimer
  | .ease => ⟨.ease, max 1 (s.profile l).easeLimit * 1000⟩
  | .trip => ⟨.latch, max 1 (s.profile l).latchLimit * 1000⟩

/-- The state, intent and timer that a RESUME takes a HALTED line to (R61, R64, R74). -/
def resumeEntry (s : State) (l : Line) : Resume → LineState × Intent × StateTimer
  | .attaching => (.attaching, ⟨.drag, .stop, 0, .arm, false⟩, ⟨.attach, max 1 (s.profile l).attachLimit * 1000⟩)
  | .tensioning =>
    (.tensioning, ⟨.release, .haul, (s.profile l).haulSpeed, .hold, false⟩,
      ⟨.tension, max 1 (s.profile l).tensionLimit * 1000⟩)
  | .easing =>
    (.easing, ⟨.modulate, .stop, (s.profile l).easeSpeed, .hold, false⟩, ⟨.ease, max 1 (s.profile l).easeLimit * 1000⟩)
  | .rewinding =>
    (.rewinding,
      ⟨.release, .haul, if (s.lcu.get l).softZoneView then (s.profile l).softSpeed else (s.profile l).rewindSpeed, .rest, false⟩,
      ⟨.rewind, max 1 (s.profile l).rewindLimit * 1000⟩)

/-- A line has entered a state while other lines of its step may have done so too: its channel, its COMMAND, the other blocks'
views, LINE_STATE and the rate class. -/
def LineSent (l : Line) (new : LineState) (i : Intent) (timer : StateTimer) (s t : State) : Prop :=
  t.lcu.get l = { s.lcu.get l with
      state := new, resume := none, faultCause := none, intent := some i, freshStatus := none, freshSample := false
      timer := some timer }
  ∧ ((i.urgent = false ∧ (s.lcu.get l).intent.any (·.same i) = true)
      ∨ ∃ r ∈ t.bus.queue, r.line = l ∧ r.kind = .command i ∧ (i.urgent = true → r.urgent = true))
  ∧ (t.lmu.get l).stateView = new ∧ (t.det.get l).stateView = new ∧ (t.reg.get l).stateView = new
  ∧ (t.sup.view.get l).state = new ∧ Raised .lineState (.line l) s t
  ∧ (t.lmu.get l).rateClass = classOf new (t.lmu.get l).counterView (t.lmu.get l).surgeView

/-- Every line of a set has taken a step's command (R72, R90, R115). -/
def LinesStepped (lines : LineSet) (mode : StepMode) (s t : State) : Prop :=
  ∀ l, lines.get l = true →
    LineSent l (if mode = .ease then .easing else .tripped) (stepIntent s l mode) (stepTimerOf s l mode) s t
    ∧ (mode = .trip → Raised .trip (.line l) s t)

/-- What the commands of a step leave alone outside the lines' items, the plan and the call. -/
def StepKept (s t : State) : Prop :=
  t.drum = s.drum ∧ t.repeater = s.repeater ∧ t.store = s.store ∧ t.outside = s.outside
  ∧ t.bus.inFlight = s.bus.inFlight ∧ t.bus.modules = s.bus.modules
  ∧ t.sup.firstFault = s.sup.firstFault ∧ t.sup.faultCount = s.sup.faultCount

/-- The command that a step gives each of its lines (R111). -/
def stepCommand (lines : LineSet) (mode : StepMode) (l : Line) : Option SeqCommand :=
  if lines.get l then some (if mode = .ease then .release else .trip) else none

/-- The Sequencer has handed lines their commands, all in one event (R115, R122). Either the lines have taken them at once, none
being on its way before; or the commands are on their way, behind the earlier ones. Which of the two is free (log entry 57). -/
def HandedOn (command : Line → Option SeqCommand) (atOnce : Bool) (s t : State) : Prop :=
  if atOnce then s.handed = [] ∧ t.handed = []
  else ∃ new, t.handed = s.handed ++ new ∧ new.Nodup ∧ ∀ h, h ∈ new ↔ command h.line = some h.command

/-- The lines that have taken the commands handed on to them. -/
def takenNow (atOnce : Bool) (lines : LineSet) : LineSet := if atOnce then lines else Lines.const false

/-- The lines of a step have taken its command, if they take it at once; every other line's items and the rest stay. -/
def StepTaken (lines : LineSet) (mode : StepMode) (atOnce : Bool) (s t : State) : Prop :=
  LinesStepped (takenNow atOnce lines) mode s t
  ∧ (∀ l, (takenNow atOnce lines).get l = false → t.lineItems l = s.lineItems l) ∧ StepKept s t

/-- The plan's marks with those of a set of lines cleared, and none on its way to them (R69, R118). -/
def unmarked (lines : LineSet) (s : State) : State :=
  { s with lcu := s.lcu.imap fun l c =>
      { c with planMark := c.planMark && !lines.get l, markComing := c.markComing && !lines.get l } }

/-- The issue check passes for a step, and its commands meet no refusal at its lines: they stand in `s` but for the line
`gone`, which is no longer latched (R72, R115). -/
def issuable (next : PlanStep) (gone : Option Line) (s : State) : Prop :=
  (∀ m, next.lines.get m = true → gone ≠ some m ∧ latched (s.stateOf m) = true)
  ∧ (next.mode = .trip ∨ s.plan.panelRampClear = true)

/-- The lines take an EASE without a refusal of their own: each has the ramp clear and no STOP (R72). -/
def easeTaken (next : PlanStep) (s : State) : Prop :=
  next.mode = .ease → ∀ m, next.lines.get m = true →
    (s.lcu.get m).panel.rampClear = true ∧ (s.lcu.get m).panel.stop = false

/-- A step has advanced (R118): the plan is DONE after the last; else the next step is current, with its delay, or at once
issued or HELD where its delay is 0 (R115). `plan` is the RUNNING record before, `n` counts from 0, `gone` is the line whose
own change let the step advance, if one did, and `atOnce` says whether the lines of an issued step take their commands at once. -/
def StepAdvanced (n : Nat) (lines : LineSet) (plan : PlanRecord) (gone : Option Line) (atOnce : Bool) (s t : State) : Prop :=
  let others (free : LineSet) := ∀ m, gone ≠ some m → free.get m = false →
    t.lineItems m = { s.lineItems m with lcu := (unmarked lines s).lcu.get m }
  let here := { plan with current := some (n + 2), stepTimer := none }
  (n + 1 = plan.steps.length →
    t.plan = { plan with state := .done, stepTimer := none } ∧ t.handed = s.handed
    ∧ (∀ m, (t.lcu.get m).planMark = false ∧ (t.lcu.get m).markComing = false)
    ∧ ∀ m, gone ≠ some m →
        t.lineItems m = { s.lineItems m with lcu := { s.lcu.get m with planMark := false, markComing := false } })
  ∧ (∀ next, plan.steps[n + 1]? = some next →
      (∀ l, gone = some l → (t.lcu.get l).planMark = ((s.lcu.get l).planMark && !lines.get l)
        ∧ (t.lcu.get l).markComing = ((s.lcu.get l).markComing && !lines.get l))
      ∧ (next.delay ≠ 0 →
          t.plan = { here with phase := some .delay, delayRemaining := next.delay * 500, delayRunning := true }
          ∧ t.handed = s.handed ∧ others (Lines.const false))
      ∧ (next.delay = 0 → issuable next gone s →
          HandedOn (stepCommand next.lines next.mode) atOnce s t
          ∧ ((atOnce = true → easeTaken next s) →
              t.plan = { here with
                phase := some .issued, delayRemaining := 0, delayRunning := false
                stepTimer := some (s.store.workingBerth.stepLimit * 1000) }
              ∧ LinesStepped (takenNow atOnce next.lines) next.mode (unmarked lines s) t
              ∧ others (takenNow atOnce next.lines)))
      ∧ (next.delay = 0 → ¬ issuable next gone s →
          t.plan = { here with
            state := .held, holdCause := some .lineNotReady, phase := some .delay, delayRemaining := 0
            delayRunning := false }
          ∧ t.handed = s.handed ∧ others (Lines.const false)))

/-- The LCU refuses a command of the Sequencer by its own rule: a RELEASE with the ramp not clear, under STOP, or outside the
latched family (R72); a TRIP of a line that no trip takes (R90); a RESUME under STOP, or of a line not HALTED (R74, R116). A
HALTED line without a resume state, which no run reaches, is one of the last. -/
def refusedAt (s : State) (h : Handed) : Bool :=
  let c := s.lcu.get h.line
  match h.command with
  | .release => !c.panel.rampClear || c.panel.stop || !inFamily c.state
  | .trip => c.state == .disabled || c.state == .stowed || c.state == .slackOut || c.state == .rewinding
  | .resume => c.panel.stop || c.state != .halted || c.resume == none

/-- What the lines of the current step are handed when a plan resumes, by their state: the table of R122. -/
def resumed (st : PlanStep) (s : State) (l : Line) : Option SeqCommand :=
  if st.lines.get l = false then none
  else if inFamily (s.stateOf l) then some (if st.mode = .ease then .release else .trip)
  else if s.stateOf l = .halted then some .resume
  else none

/-- The repeater's unit steps computed anew, from the berth profile's unit and the selected line's step size, 0 for no selection
and for a line without a working copy, and its band taken from a referenced position of that line (R55). A step size of 0 gives a
free quotient (log entry 35). -/
def UnitRetaken (r : Repeater) (t : State) : Prop :=
  let unit := match r.selected with
    | none => 0
    | some l => match t.store.working.get l with
      | none => 0
      | some p => t.store.workingBerth.repeaterUnit * 10000 / p.stepUm
  (∀ l p, r.selected = some l → t.store.working.get l = some p → p.stepUm ≠ 0) →
  t.repeater = { r with
    unitSteps := unit
    band := match r.selected with
      | none => none
      | some l =>
        if unit ≠ 0 ∧ (t.drum.get l).referenced = true then some ((t.drum.get l).position.fdiv unit) else none }

/-! ## The call -/

/-- The call after lines of it were sent to EASING or TRIPPED by one event: a MOORED call of one of them lets go (R132). -/
def LinesLetGo (lines : LineSet) (s t : State) : Prop :=
  let lets := s.sup.call.phase = .moored ∧ ∃ m, lines.get m = true ∧ s.sup.call.assigned.get m = true
  (lets → t.sup.call = { s.sup.call with phase := .lettingGo } ∧ Raised .call .berth s t)
  ∧ (¬ lets → t.sup.call = s.sup.call)

/-- A line has left the call by going to DISABLED, adoption being complete: out of the assigned set, with the phase as Made Fast
and the Depart condition then give it (R132, R134). -/
def CallWithout (l : Line) (s t : State) : Prop :=
  let c := { s.sup.call with assigned := s.sup.call.assigned.set l false }
  let made := c.phase = .arriving ∧ heldFast c.assigned t
  let gone := c.phase = .lettingGo ∧ departHolds t
  (made → t.sup.call = { c with phase := .moored, madeFastTime := some (c.madeFastTime.getD (c.timeMs / 1000)) })
  ∧ (gone → t.sup.call = { c with phase := .clear }) ∧ (¬ made → ¬ gone → t.sup.call = c)
  ∧ (t.sup.call ≠ s.sup.call → Raised .call .berth s t)

/-- The open call has been closed, DEPART_PERMIT given, by a CLOSE_CALL or not: call, plan, marks, working targets, assignments,
the two events, and a pending Berth Profile applied, with the repeater's unit and band (R55, R126, R133, R189). -/
def Closed (depart byShore : Bool) (s t : State) : Prop :=
  t.sup = { s.sup with
      call := { s.sup.call with phase := .idle, vesselCode := none, assigned := Lines.const false }
      closeChecked := none
      closedCall := (match s.sup.call.vesselCode with
        | some code => if byShore = true ∧ code ≠ 0#16 then some (code, s.now) else none
        | none => none)
      rampPermit := false, departPermit := depart }
  ∧ t.plan = { s.plan with
      state := .none, owner := none, steps := [], current := none, phase := none, delayRemaining := 0
      delayRunning := false, stepTimer := none, holdCause := none
      abortCause := if s.plan.state = .running ∨ s.plan.state = .held then some .callClosed else none }
  ∧ t.lcu = (s.lcu.imap fun l c => { c with
      workingTarget := (s.profile l).targetDefault, planMark := false, markComing := false })
  ∧ t.lmu = (s.lmu.imap fun _ c => { c with assignedView := false })
  ∧ Raised .call .berth s t ∧ Raised .plan .berth s t
  ∧ (s.store.applyPending.berth = false → OnlyPorts { s with
      sup := t.sup, plan := t.plan, lcu := t.lcu, lmu := t.lmu } t)
  ∧ (s.store.applyPending.berth = true →
      t.store = { s.store with
        applyPending := { s.store.applyPending with berth := false }
        workingBerth := berthProfileOf s.store.stored.berth.bytes, berthDefaults := false }
      ∧ (t.shore.events.berth).has .store = true ∧ UnitRetaken s.repeater t
      ∧ t = { s with
          sup := t.sup, plan := t.plan, lcu := t.lcu, lmu := t.lmu, store := t.store, repeater := t.repeater
          shore := t.shore, vessel := t.vessel })

/-! ## Status reports -/

/-- The six bytes of a completed STATUS: those in its buffer behind the index, and for the rest the ones that the command
brings (R147, R151). -/
def sixBytes (f : InFlight) (b : StatusBytes) : StatusBytes :=
  let read (place : Nat) (last : Byte) := (f.buffer[place]?).getD last
  ⟨read 1 b.brake, read 2 b.latch, read 3 b.stow, read 4 b.drive, read 5 b.faultCode, read 6 b.sequence⟩

/-- A report takes none of the tests of R79 to R82 at the LCU: no new fault code, no latch and no stow mark that moves the line
in its state. A line in ADOPTING or FAULT uses every report (R63, R194). -/
def takesNoTest (s : State) (l : Line) (b : StatusBytes) : Prop :=
  let c := s.lcu.get l
  let st := s.stateOf l
  st = .disabled
  ∨ (st ≠ .adopting ∧ st ≠ .fault
      ∧ (b.faultCode = 0#8 ∨ ∃ q, c.lastStatus = some q ∧ q.faultCode = b.faultCode)
      ∧ (b.latch = 0#8 → st = .stowed ∨ st = .attaching ∨ st = .slackOut ∨ st = .rewinding
          ∨ (st = .halted ∧ c.resume ≠ some .tensioning ∧ c.resume ≠ some .easing))
      ∧ (b.latch = 1#8 → st ≠ .attaching ∧ st ≠ .rewinding ∧ (st = .halted → c.resume ≠ some .attaching))
      ∧ (b.stow ≠ 0#8 → st ≠ .rewinding ∧ st ≠ .slackOut ∧ (st = .halted → c.resume ≠ some .rewinding)))

/-- The report that a status block stands for (R152). -/
def reportOf (b : StatusBytes) : SensedStatus :=
  ⟨b.brake, if b.latch = 0#8 then .opened else if b.latch = 1#8 then .closed else .moving, b.stow != 0#8, b.drive, b.faultCode,
   b.sequence, false⟩

/-- The bus after a STATUS of a line has completed: idle, with the module's count 0 (R152, R158). -/
def busAfterStatus (s : State) (l : Line) : DriveBus :=
  { s.bus with
    inFlight := none, activity := .idle, stuckTimer := none
    modules := s.bus.modules.set l { s.bus.modules.get l with failures := 0 } }

/-! ## Validation of profiles -/

/-- A field of a Line Profile's 78 bytes fails, by its offset: the table of R187. -/
def lineFieldFails (s : State) (l : Line) (data : List Byte) (offset : Nat) : Prop :=
  let byte (k : Nat) := (data.getD k 0#8).toNat
  let half (k : Nat) := byte k * 256 + byte (k + 1)
  (offset = 0 ∧ 7 < byte 0)
  ∨ (offset = 1 ∧ byte 0 % 2 = 1
      ∧ (byte 1 < 0x20 ∨ 0x5F < byte 1
          ∨ ∃ m, m ≠ l ∧
              (let r := s.store.stored.lines.get m
               (r.checkGood = true ∧ (r.bytes.getD 0 0#8).toNat % 2 = 1 ∧ (r.bytes.getD 1 0#8).toNat = byte 1)
               ∨ (s.stateOf m ≠ .disabled ∧ ∃ p, s.store.working.get m = some p ∧ p.driveAddress = byte 1))))
  ∨ (offset = 2 ∧ 6 < byte 2)
  ∨ (offset = 3 ∧ (7 < byte 3 % 16 ∨ byte 3 / 16 < 4 ∨ 12 < byte 3 / 16))
  ∨ (offset = 14 ∧ half 14 < half 12)
  ∨ (offset = 16 ∧ half 16 < half 14)
  ∨ (offset = 18 ∧ (half 18 ≤ half 16 ∨ 20000 < half 18))
  ∨ (offset = 21 ∧ byte 21 = 0)
  ∨ (offset = 26 ∧ half 22 ≤ half 26)
  ∨ (offset = 28 ∧ (half 28 < 10 ∨ 3600 < half 28))
  ∨ (offset = 30 ∧ half 12 ≤ half 30)
  ∨ (offset = 34 ∧ byte 34 = 0)
  ∨ (offset = 35 ∧ byte 35 = 0)
  ∨ (offset = 40 ∧ (half 40 < 50 ∨ 3000 < half 40))
  ∨ (offset = 42 ∧ (half 42 < 10 ∨ half 40 ≤ half 42))
  ∨ (offset = 46 ∧ (half 46 < 50 ∨ 5000 < half 46))
  ∨ (69 ≤ offset ∧ offset ≤ 77 ∧ byte offset ≠ 0)

/-- A field of a Berth Profile's 78 bytes fails, by its offset (R187). -/
def berthFieldFails (data : List Byte) (offset : Nat) : Prop :=
  let byte (k : Nat) := (data.getD k 0#8).toNat
  let stepLimit := byte 2 * 256 + byte 3
  (offset = 2 ∧ (stepLimit < 10 ∨ 600 < stepLimit)) ∨ (offset = 8 ∧ 1 < byte 8)
  ∨ (9 ≤ offset ∧ offset ≤ 77 ∧ byte offset ≠ 0)

/-- A field of a record's 78 bytes fails, by its offset (R187). -/
def fieldFails (s : State) (r : RecordName) (data : List Byte) (offset : Nat) : Prop :=
  match r with
  | .line l => lineFieldFails s l data offset
  | .berth => berthFieldFails data offset

/-! ## A profile applied (R189) -/

/-- A Line Profile `p` has been applied to a line that stood in state `st`, at its entry into STOWED or not (R24, R48, R49, R55,
R75, R95, R96, R148, R189): the working copy and every block's use of it. With the enabled option a DISABLED line goes to ADOPTING
and another keeps its state; without it the line is DISABLED, with the working target 0 and no limits if it was not so before
(log entry 40). -/
def Applied (l : Line) (p : LineProfile) (st : LineState) (atStow : Bool) (s t : State) : Prop :=
  let live := p.enabled = true ∨ st = .disabled
  let leaves := p.enabled = false ∧ st ≠ .disabled
  let steps (distance : Nat) := if live then distance * 10000 / p.stepUm else 0
  t.store = { s.store with
      applyPending := { s.store.applyPending with lines := s.store.applyPending.lines.set l false }
      working := s.store.working.set l (some p) }
  ∧ Raised .store (.line l) s t
  ∧ t.stateOf l = (if p.enabled then (if st = .disabled then .adopting else st) else .disabled)
  ∧ (t.lcu.get l).workingTarget = (if live then p.targetDefault else 0)
  ∧ (t.drum.get l).softZoneSteps = steps p.softZone ∧ (t.drum.get l).payoutMaxSteps = steps p.payoutMax
  ∧ (t.reg.get l).payoutMax = steps p.payoutMax
  ∧ (t.reg.get l).allowance = p.allowance * 1000 / p.stepUm
  ∧ (t.reg.get l).half = p.allowance * 1000 / p.stepUm / 2
  ∧ (t.lmu.get l).workingZero16 = p.zero16 ∧ (t.lmu.get l).seeded = false
  ∧ (t.lmu.get l).zeroCapture = (if atStow = true ∧ p.enabled = true ∧ p.autoZero = true then some ⟨0, 0⟩ else none)
  ∧ t.bus.modules = s.bus.modules.set l ⟨0, .none⟩
  ∧ (s.repeater.selected ≠ some l → t.repeater = s.repeater)
  ∧ (s.repeater.selected = some l →
      UnitRetaken { s.repeater with pendingCount := if leaves then 0 else s.repeater.pendingCount } t)
  ∧ (leaves →
      (t.lcu.get l).intent = none ∧ (t.lcu.get l).lastStatus = none ∧ (t.drum.get l).position = 0
      ∧ (t.drum.get l).referenced = false ∧ (t.lmu.get l).gate = .idle ∧ t.sup.call.assigned.get l = false
      ∧ (∀ x ∈ t.bus.queue, x.line ≠ l) ∧ Raised .lineState (.line l) s t)

/-! ## A completed reset -/

/-- The part as a completed reset leaves it, by its stored records and the levels on its inputs: every item of the working state
(R1, R25, R42, R45, R53, R59, R96, R110, R128, R129, R142, R147, R166, R172, R184, R185, R193, R197). -/
def freshlyReset (t : State) : Prop :=
  let berth := t.store.workingBerth
  let goodBerth := t.store.stored.berth.checkGood
  let allOff := t.lcu.allB fun _ c => c.state == .disabled
  (∀ l,
    let r := t.store.stored.lines.get l
    let p := lineProfileOf r.bytes
    let on := r.checkGood && p.enabled
    let st : LineState := if on then .adopting else .disabled
    t.store.working.get l = (if r.checkGood then some p else none)
    ∧ t.lmu.get l = (if on then { LmuChannel.reset with
          gate := .armed, gUsed := max 2 (2 ^ (p.gateCode + 1) / 8), deadline := some 100, sampleTimer := some 10
          rateClass := some .active, workingZero16 := p.zero16, stateView := .adopting }
        else LmuChannel.reset)
    ∧ t.det.get l = { DetectorChannel.reset with stateView := st }
    ∧ t.lcu.get l = { LcuChannel.reset with state := st, workingTarget := if on then p.targetDefault else 0 }
    ∧ t.sup.view.get l = LineView.reset st
    ∧ { t.drum.get l with softZoneSteps := 0, payoutMaxSteps := 0 } =
        { DrumChannel.reset (Quad.ofPins (t.pins.encoder.get l)) with
          stationaryTimer := if on then some 1000 else none, stationary := !on }
    ∧ { t.reg.get l with allowance := 0, half := 0, payoutMax := 0 } = { RegulatorChannel.reset with stateView := st }
    ∧ (on = false ∨ p.stepUm ≠ 0 →
        let steps (distance : Nat) := if on then distance / p.stepUm else 0
        (t.drum.get l).softZoneSteps = steps (p.softZone * 10000) ∧ (t.drum.get l).payoutMaxSteps = steps (p.payoutMax * 10000)
        ∧ (t.reg.get l).payoutMax = steps (p.payoutMax * 10000) ∧ (t.reg.get l).allowance = steps (p.allowance * 1000)
        ∧ (t.reg.get l).half = steps (p.allowance * 1000) / 2)
    ∧ t.shore.events.lines.get l = { KindSet.none with store := !r.checkGood })
  ∧ t.repeater = ⟨none, 0, none, 0, .q0, max 1 berth.flankDelay⟩
  ∧ t.plan = PlanRecord.reset ∧ t.handed = []
  ∧ t.sup = { Supervisor.reset with view := t.sup.view, adoptionComplete := allOff, departPermit := allOff }
  ∧ t.bus = DriveBus.reset
  ∧ t.shore = { ShorePort.reset with
      events := ⟨t.shore.events.lines, { KindSet.none with resetSeen := true, store := !goodBerth, permit := allOff }⟩ }
  ∧ t.vessel = { VesselPort.reset (max 200 (min 5000 berth.reportInterval)) with
      events := ⟨Lines.const KindSet.none, { KindSet.none with resetSeen := true, permit := allOff }⟩ }
  ∧ berth = (if goodBerth then berthProfileOf t.store.stored.berth.bytes else ⟨0, 120, 1000, 0, 10, false⟩)
  ∧ t.store.berthDefaults = !goodBerth
  ∧ t.store.sessionLock = Records.const false ∧ t.store.applyPending = Records.const false
  ∧ t.store.programming = .none ∧ t.now = 0 ∧ t.resetting = none

/-! ## Invariants -/

/-- The permits are what their conditions give, and none is asserted during a reset (R136, R137, R193). -/
def permitsHold (s : State) : Bool :=
  if s.resetting.isSome then !s.sup.rampPermit && !s.sup.departPermit
  else s.sup.rampPermit == rampCondition s.sup && s.sup.departPermit == departPermitCondition s.sup

/-- The drive queue's form: at most one COMMAND and one STATUS for a line, URGENT records first, and none but COMMANDs URGENT
(R153, R154, R155). -/
def queueForm (q : List BusRecord) : Bool :=
  (Line.all.all fun l => q.countP (·.isCommand l) ≤ 1 && q.countP (·.isStatus l) ≤ 1)
    && (q.dropWhile (·.urgent)).all (fun r => !r.urgent)
    && q.all fun r => !r.urgent || r.isCommand r.line

/-- ATTN_S is low exactly while RESET_SEEN or a pair of a selected kind is pending; high during a reset (R171, R193). -/
def attnFollows (s : State) : Bool :=
  if s.resetting.isSome then !s.shore.attnLow
  else s.shore.attnLow == (s.shore.events.berth.resetSeen || s.shore.events.meets s.shore.mask)

/-- The line's drive intent is the one of its state in the table of R61: with the speeds of the working profile, V while it
renders, the soft speed in the soft zone, and the latch of a HALTED or FAULT line by its resume state or last sensed latch. -/
def intentFits (s : State) (l : Line) : Bool :=
  let p := s.profile l
  let c := s.lcu.get l
  match c.state with
  | .disabled => c.intent == none
  | .adopting => c.intent == none
  | .stowed => c.intent == some ⟨.apply, .stop, 0, .rest, false⟩
  | .attaching => c.intent == some ⟨.drag, .stop, 0, .arm, false⟩
  | .tensioning => c.intent == some ⟨.release, .haul, p.haulSpeed, .hold, false⟩
  | .holding => c.intent == some ⟨.apply, .stop, 0, .hold, false⟩
  | .rendering => c.intent == some ⟨.modulate, .stop, (s.reg.get l).speed, .hold, false⟩
  | .recovering => c.intent == some ⟨.release, .haul, p.recoverSpeed, .hold, false⟩
  | .easing => c.intent == some ⟨.modulate, .stop, p.easeSpeed, .hold, false⟩
  | .unlatching => c.intent == some ⟨.apply, .stop, 0, .release, false⟩
  | .slackOut => c.intent == some ⟨.apply, .stop, 0, .rest, false⟩
  | .rewinding => c.intent == some ⟨.release, .haul, if c.softZoneView then p.softSpeed else p.rewindSpeed, .rest, false⟩
  | .tripped => c.intent == some ⟨.apply, .stop, 0, .release, true⟩
  | .halted =>
    c.intent == some ⟨.apply, .stop, 0,
      if c.resume == some .tensioning || c.resume == some .easing then .hold else .rest, false⟩
  | .fault =>
    c.intent == some ⟨.apply, .stop, 0, if c.lastStatus.all (fun r => r.latch == .closed) then .hold else .rest, false⟩

/-- No change of the call is outstanding outside a reset: an ARRIVING call is not Made Fast, one that lets go does not meet the
Depart condition, and until adoption is complete some line is ADOPTING (R132, R197). -/
def callTimely (s : State) : Bool :=
  let c := s.sup.call
  let fast := c.assigned.anyB (fun _ a => a) && c.assigned.allB fun l a => !a || inFamily (s.sup.view.get l).state
  let gone := s.sup.view.allB fun _ v =>
    v.state == .disabled || v.state == .stowed || v.state == .slackOut || v.state == .rewinding
      || (v.state == .halted && v.latchIntent == some .rest) || (v.state == .fault && v.lastLatch == some .opened)
  s.resetting.isSome
    || (!(c.phase == .arriving && fast) && !(c.phase == .lettingGo && gone)
        && (s.sup.adoptionComplete || s.sup.view.anyB fun _ v => v.state == .adopting))

/-- What the blocks have been told about a line agrees with its owners: the rate class is the table's (R7); the counters (R40)
and the surge flag (R36, R38) as the Condition Detector holds them; the inhibit flags (R98), the latch intent, and a FAULT line's
last sensed latch (R60, R63) as the LCU holds them; the soft zone (R50) as the Drum Counter; the assignment (R130) as the
Supervisor. -/
def viewFollows (s : State) (l : Line) : Bool :=
  let c := s.lcu.get l
  let m := s.lmu.get l
  let d := s.det.get l
  let v := s.sup.view.get l
  m.rateClass == classOf m.stateView m.counterView m.surgeView
    && m.counterView == counting d && d.pendingIndicator == counting d
    && m.surgeView == d.surgeFlag && v.surge == d.surgeFlag
    && v.renderInhibited == c.renderInhibited && v.recoverInhibited == c.recoverInhibited
    && v.latchIntent == c.intent.map (·.latch)
    && (c.state != .fault || v.lastLatch == c.lastStatus.map (·.latch))
    && c.softZoneView == (s.drum.get l).softZone
    && m.assignedView == (s.sup.call.phase != .idle && s.sup.call.assigned.get l)

/-- The blocks agree about every line and the call: what each has been told is what its owner holds, every intent is that of its
state, and no change of the call is outstanding. -/
def blocksAgree (s : State) : Prop :=
  callTimely s = true ∧ ∀ l, intentFits s l = true ∧ viewsAgree s l = true ∧ viewFollows s l = true

/-- A commissioned record has no write in programming (R188). -/
def commissionedSafe (s : State) : Bool :=
  match s.store.programming with
  | .write r _ => !s.store.commissioned.get r
  | .lock _ => true
  | .none => true

/-- The call once line `l` has let a step advance (R132): it takes the line's notice, unless lines of the next step, which has no
delay, take their commands at once; then a MOORED one lets go for them. -/
def CallAdvances (n : Nat) (plan : PlanRecord) (l : Line) (atOnce : Bool) (s t : State) : Prop :=
  (n + 1 = plan.steps.length → CallFollows l s t)
  ∧ ∀ next, plan.steps[n + 1]? = some next →
      (next.delay ≠ 0 ∨ ¬ issuable next (some l) s ∨ atOnce = false → CallFollows l s t)
      ∧ (next.delay = 0 → issuable next (some l) s → atOnce = true → easeTaken next s →
          (∃ m, next.lines.get m = true) → blocksAgree s → LinesLetGo next.lines s t)

end Sys2Proof.Machine
end

