-- ==== Sys2Proof/Certificates/Slice0/Obligations.lean ====
section
/-! DEFINITION. The statements for the provers, each a proposition about the model. -/

open Sys2Proof Sys2Proof.Machine

/-! ## The machine -/

/-- The command at the front of the queue is run on the state with the queue's rest (the row's own form of a step). -/
def Obligations.StepTakesFrontOfQueue : Prop :=
  ∀ (c : Instr) (s : State), step { s with pending := c :: s.pending } = exec c s

/-- An empty queue is the time base (the model's choice, log entries 1, 13, 57 and 61): nothing during a reset; one event that is
due, or a plan mark or a command of the Sequencer that reaches its line, the mark first and then the commands in their order, if
there is any; else one millisecond. The events that are due are those whose timer has run out, where the state is the one its
expiry is for, a record that waits for an idle bus (R156), and a complete message (R173). A millisecond takes every running
timer down by one, and an open call's time up by one, at most 65535 s (R128). What a millisecond does to a transaction in
flight is free (log entries 20, 21). -/
def Obligations.EmptyQueueIsTheTimeBase : Prop :=
  ∀ s : State,
    (∀ i, i ∈ dueEvents s ↔ dueNow s i)
    ∧ MillisecondPassed s (tick s)
    ∧ (s.pending = [] →
      (s.resetting ≠ none → step s = .next s)
      ∧ (s.resetting = none → (∀ i, ¬ dueNow s i) → s.handed = [] → (∀ l, (s.lcu.get l).markComing = false) →
          step s = .next (tick s))
      ∧ (s.resetting = none → (∃ i, dueNow s i) ∨ s.handed ≠ [] ∨ (∃ l, (s.lcu.get l).markComing = true) →
          (∃ i, dueNow s i ∧ step s = exec i s.drawn)
          ∨ (∃ l, (s.lcu.get l).markComing = true
              ∧ step s = .next (s.drawn.setLcu l { s.lcu.get l with planMark := true, markComing := false }))
          ∨ ∃ earlier h later, s.handed = earlier ++ h :: later ∧ (∀ x ∈ earlier, x.line ≠ h.line)
              ∧ (s.lcu.get h.line).markComing = false
              ∧ step s = .next (takeTx (takeHanded { s.drawn with handed := earlier ++ later } h))))

/-- Every command answers a next state and leaves the waiting commands alone; while a reset is in progress only a reset or
its completion changes the part, and the levels on the pins are still followed: those of the four commands that report one, and
no other (R192, R193). That nothing else happens during a reset is read from the rules (log entry 17). -/
def Obligations.EveryCommandRunsAndKeepsTheQueue : Prop :=
  ∀ (c : Instr) (s : State), ∃ t, exec c s = .next t ∧ t.pending = s.pending
    ∧ (s.resetting ≠ none → c ≠ .powerOn → c ≠ .pinReset → c ≠ .resetCompletion →
        t = { s with pins :=
          match c with
          | .encoderChange l a b => { s.pins with encoder := s.pins.encoder.set l ⟨a, b⟩ }
          | .panelInputChange .trip x => { s.pins with trip := x }
          | .panelInputChange .stop x => { s.pins with stop := x }
          | .panelInputChange .rampClear x => { s.pins with rampClear := x }
          | .frameStart => { s.pins with selected := true }
          | .frameRelease _ _ _ => { s.pins with selected := false }
          | _ => s.pins })

/-! ## Resets (chapter 11) -/

/-- POWER_ON and PIN_RESET begin a reset: the outputs take their reset levels, the stored records and commissioning locks
stay but for a record whose programming is cut short, which fails its check, and pins and queue stay (R192, R193, R188). That
what a cut-short write leaves fails its check whatever its bytes (log entry 7), the lines' state meanwhile (log entry 17), and
the cause POWER_ON of every PIN_RESET within a POWER_ON reset, the supply risen or not (log entry 62), are the model's. -/
def Obligations.SupplyAndPinBeginAReset : Prop :=
  ∀ (i : Instr) (c : ResetCause) (s : State),
    ((i = .powerOn ∧ c = .powerOn) ∨ (i = .pinReset ∧ c = if s.resetting = some .powerOn then .powerOn else .pin)) →
    ∃ t, exec i s = .next t ∧ t.resetting = some c ∧ t.resetCause = c
      ∧ t.sup.rampPermit = false ∧ t.sup.departPermit = false ∧ t.shore.attnLow = false ∧ t.repeater.output = .q0
      ∧ t.vessel.tx = .idle ∧ t.bus.inFlight = none ∧ t.bus.activity = .idle ∧ t.bus.queue = [] ∧ t.handed = []
      ∧ (∀ r, (∀ bytes, s.store.programming ≠ .write r bytes) → t.store.stored.get r = s.store.stored.get r)
      ∧ (∀ r bytes, s.store.programming = .write r bytes → (t.store.stored.get r).checkGood = false)
      ∧ t.store.commissioned = s.store.commissioned ∧ t.store.programming = .none
      ∧ t.pins = s.pins ∧ t.pending = s.pending

/-- Reset completion: each line with a good enabled profile is ADOPTING with its gate started, every other DISABLED; every other
item of the working state at its reset value; records, locks, cause, pins and queue stay (R185, R193, R197). The reset values
that no rule states (log entry 19), the working zero16 of a DISABLED line (log entry 51) and the missing LINE_STATE (log entry
18) are the model's. -/
def Obligations.ResetCompletionSetsTheBerth : Prop :=
  ∀ s : State, s.resetting ≠ none →
    ∃ t, exec .resetCompletion s = .next t ∧ freshlyReset t ∧ t.resetCause = s.resetCause
      ∧ t.store.stored = s.store.stored ∧ t.store.commissioned = s.store.commissioned
      ∧ t.pins = s.pins ∧ t.pending = s.pending

/-- An accepted SOFT_RESET resets the part in the same event and leaves the slot EMPTY (R169, R192); a record whose
programming it cuts short fails its check (R188). That what a cut-short write leaves fails its check whatever its bytes (log
entry 7), the reset values that no rule states (log entry 19), the working zero16 of a DISABLED line (log entry 51) and the
missing LINE_STATE (log entry 18) are the model's. -/
def Obligations.SoftResetResetsThePart : Prop :=
  ∀ s : State, admitted s .shore .softReset = true →
    ∃ t, exec (.softReset .shore) s = .next t ∧ freshlyReset t ∧ t.resetCause = .soft
      ∧ (∀ r, (∀ bytes, s.store.programming ≠ .write r bytes) → t.store.stored.get r = s.store.stored.get r)
      ∧ (∀ r bytes, s.store.programming = .write r bytes → (t.store.stored.get r).checkGood = false)
      ∧ t.store.commissioned = s.store.commissioned ∧ t.pins = s.pins ∧ t.pending = s.pending

/-! ## Load measurement (chapter 1) -/

/-- A period boundary starts a gate on an IDLE channel and leaves the start deferred where a gate is in flight (R2, R5); the
first rising edge opens an ARMED gate (R3); the hold timer's expiry reseeds the reference from the T_f held, stops the timer and
raises REF_RESEED (R16). Nothing else changes. -/
def Obligations.GateAndHoldEvents : Prop :=
  ∀ (s : State) (l : Line) (k : RateClass) (n : Nat), s.resetting = none →
    ((s.lmu.get l).sampleTimer = some n → (s.lmu.get l).rateClass = some k →
      exec (.sampleBoundary l) s = .next (takeTx (s.setLmu l
        (if (s.lmu.get l).gate = .idle then startedIn (s.profile l) k (s.lmu.get l)
         else { s.lmu.get l with sampleTimer := none, deferred := true }))))
    ∧ ((s.lmu.get l).gate = .armed →
      exec (.gateOpeningEdge l) s =
        .next (takeTx (s.setLmu l { s.lmu.get l with gate := .counting, tickCount := 0 })))
    ∧ ((s.lmu.get l).holdTimer = some n →
      ∃ t, exec (.holdTimerExpiry l) s = .next t ∧ s.sameTraffic t
        ∧ OnlyEvent .refReseed (.line l)
            (s.setLmu l { s.lmu.get l with rAcc := (s.lmu.get l).fAcc / 256 * 256, holdTimer := none }) t)

/-- A sample's readings. Good: F16, T_raw and the filter, or the seeding of a channel that is not seeded, and the miss count 0 (R9
to R12, R19). A gate that ends without its periods: F16 and T_raw stay, the filter of a seeded channel runs on the held T_raw,
the miss count advances, and the third miss in a row takes the line to FAULT SENSOR_LOST, counted and captured (R4, R18, R19,
R144). The gate is IDLE again, a deferred start is taken in a class of the table, and the line's STATUS poll is queued (R5, R8,
R155). What stands outside the berth's lines, plan and call stays. The order of the recipients is free (log entry 8), and so is
what a line that the sample takes to DISABLED leaves in the queue (log entry 59); the time of a fault that opens a call is the
model's (log entries 14, 60). -/
def Obligations.SampleReadings : Prop :=
  ∀ (s : State) (l : Line) (i : Instr) (f16 tRaw misses : Nat) (fAcc : Int), s.resetting = none →
    let c := s.lmu.get l
    let p := s.profile l
    let staysEnabled := s.store.applyPending.lines.get l = false
    let polled := { s with bus := { s.bus with
      queue := if s.bus.queue.any (·.isStatus l) then s.bus.queue else s.bus.queue ++ [⟨l, .status, false⟩] } }
    let faultIntent : Intent :=
      ⟨.apply, .stop, 0, if (s.lcu.get l).lastStatus.all (fun r => r.latch == .closed) then .hold else .rest, false⟩
    ((∃ ticks : BitVec 24, i = .goodSample l ticks ∧ c.gate = .counting ∧ ticks.toNat ≠ 0
        ∧ f16 = 128000000 * c.gUsed / ticks.toNat
        ∧ tRaw = (if f16 ≤ c.workingZero16 then 0 else min 20000 ((f16 - c.workingZero16) * p.span / 4096))
        ∧ fAcc = (if c.seeded then c.fAcc + (((tRaw : Int) * 256 - c.fAcc) >>> p.betaF) else (tRaw : Int) * 256)
        ∧ misses = 0)
     ∨ (((i = .gateDeadline l ∧ c.gate ≠ .idle) ∨ (i = .tickCountOverflow l ∧ c.gate = .counting))
        ∧ f16 = c.f16 ∧ tRaw = c.tRaw
        ∧ fAcc = (if c.seeded then c.fAcc + (((c.tRaw : Int) * 256 - c.fAcc) >>> p.betaF) else c.fAcc)
        ∧ misses = min 255 (c.missCount + 1))) →
    ∃ t, exec i s = .next t
      ∧ (t.lmu.get l).f16 = f16 ∧ (t.lmu.get l).tRaw = tRaw ∧ (t.lmu.get l).fAcc = fAcc
      ∧ (t.lmu.get l).tF = (t.lmu.get l).fAcc / 256 ∧ (t.lmu.get l).missCount = misses
      ∧ (misses = 3 → s.stateOf l ≠ .disabled → staysEnabled →
          t.stateOf l = .fault ∧ Raised .fault (.line l) s t ∧ FaultCaptured l .sensorLost s t
          ∧ (s.stateOf l ≠ .fault →
              (t.lcu.get l).faultCause = some .sensorLost ∧ Entered l .fault none faultIntent none polled t))
      ∧ (c.deferred = false → (t.lmu.get l).gate = .idle ∧ (t.lmu.get l).deadline = none)
      ∧ (c.deferred = true → c.rateClass ≠ none → c.stateView ≠ .disabled → staysEnabled →
          ∃ k : RateClass, t.lmu.get l = startedIn p k (t.lmu.get l))
      ∧ (staysEnabled → ∃ r ∈ t.bus.queue, r.line = l ∧ r.kind = .status)
      ∧ (∀ m, m ≠ l → (t.lmu.get m).f16 = (s.lmu.get m).f16 ∧ (t.lmu.get m).tRaw = (s.lmu.get m).tRaw
          ∧ (t.lmu.get m).fAcc = (s.lmu.get m).fAcc ∧ (t.lmu.get m).missCount = (s.lmu.get m).missCount)
      ∧ t.outside = s.outside ∧ s.sameTraffic t

/-- A sample that confirms nothing, of a line in any state, is measured, counted and polled. The channel takes the filter and the
reference rule of its state: in HOLDING Ref follows T_f by beta_r, or is withheld at the halt threshold or under the surge flag
with the hold timer started; it stays in RENDERING and RECOVERING, and is T_f elsewhere (R11 to R16, R18). The peak of an assigned
line rises (R20). A zero capture counts the sample and judges the sixteenth, with a new working zero16 and ZERO_DONE or with
ZERO_ERROR, which a NO_SIGNAL sample gives at once (R22, R23). An evaluated sample raises the counter of a watched condition that
it agrees with, and breaks the run of one that it does not (R31, R32, R36, R37); a change of "any counter non-zero" gives the
line its rate class (R7, R40). A deferred gate starts in the class before or after that (R8); the speed window closes (R51), and
one STATUS poll is queued (R155). Nothing else changes but ZERO_DONE or ZERO_ERROR raised. The order of the recipients is
free (R17, log entry 8). -/
def Obligations.UnconfirmingSampleIsMeasuredCountedAndPolled : Prop :=
  ∀ (s : State) (l : Line) (i : Instr) (ticks : Option Nat), s.resetting = none →
    let c := s.lmu.get l
    let d := s.det.get l
    let p := s.profile l
    let st := s.stateOf l
    ((∃ n : BitVec 24, i = .goodSample l n ∧ c.gate = .counting ∧ n.toNat ≠ 0 ∧ ticks = some n.toNat)
     ∨ (((i = .gateDeadline l ∧ c.gate ≠ .idle) ∨ (i = .tickCountOverflow l ∧ c.gate = .counting))
        ∧ ticks = none ∧ c.missCount ≠ 2)) →
    c.stateView = st → d.stateView = st →
    (st = .adopting → ticks.isSome = true → (s.lcu.get l).freshSample = true) →
    (st = .rendering → (s.reg.get l).rendering = false) →
    (c.deferred = true → c.rateClass ≠ none ∧ st ≠ .disabled) →
    let m := (measured s l ticks).1
    let delta := (measured s l ticks).2
    let tF := m.fAcc / 256
    let evaluated := ticks.isSome || c.seeded
    (evaluated = true →
      (∀ k, watches st k = true → agrees s l tF k = true →
        d.active.get k = false ∧ d.counters.get k + 1 ≠ max 1 p.debounceIn)
      ∧ (inFamily st = true → surgeAgrees s l delta = true →
        d.surgeCounter + 1 ≠ max 1 (if d.surgeFlag then p.debounceOut else p.debounceIn))) →
    let d' := if evaluated then counted s l tF delta else d
    let told := evaluated && counting d' != d.pendingIndicator
    let z := captured s l ticks.isSome m.f16
    let c' := { m with
      counterView := if told then counting d' else m.counterView
      rateClass := if told then classOf st (counting d') m.surgeView else m.rateClass
      peak := if m.assignedView && evaluated then max m.peak tF else m.peak
      zeroCapture := z.1, workingZero16 := z.2.1 }
    ∃ k : RateClass, (c.deferred = true → c.rateClass = some k ∨ c'.rateClass = some k)
      ∧ (let u := { s with
          lmu := s.lmu.set l (if c.deferred then startedIn p k c' else c')
          det := s.det.set l (if evaluated then { d' with pendingIndicator := counting d' } else d)
          drum := s.drum.set l { s.drum.get l with
            speed := max (-32767) (min 32767
              (((s.drum.get l).stepAcc * p.stepUm).tdiv (max 1 (s.now - (s.drum.get l).windowStart) : Nat)))
            stepAcc := 0, windowStart := s.now }
          bus := { s.bus with
            queue := if s.bus.queue.any (·.isStatus l) then s.bus.queue else s.bus.queue ++ [⟨l, .status, false⟩] }
          choices := s.choices + 1 }
        (z.2.2 = none → exec i s = .next (takeTx u))
        ∧ (∀ e, z.2.2 = some e → ∃ t, exec i s = .next t ∧ s.sameTraffic t ∧ OnlyEvent e (.line l) u t))

/-! ## Load conditions and renders (chapters 2 and 5) -/

/-- A first render confirmation in HOLDING with render inhibited clear: below the allowance the render starts at the clamped
demand; at or beyond it the flag is set and the line stays HOLDING. The confirmation counts one overload either way, and First
Overload, if there is none yet, takes the line, T_f, the net payout in mm and the open call's time (R32, R35, R85, R99, R142,
R143). Where a surge of the same sample is counted, its order with the confirmation is free (log entry 45). -/
def Obligations.RenderConfirmationStartsOrInhibits : Prop :=
  ∀ (s : State) (l : Line) (ticks : BitVec 24), sampleReady s l ticks = true → s.stateOf l = .holding →
    (s.det.get l).active.render = false → (s.det.get l).counters.render + 1 = max 1 (s.profile l).debounceIn →
    (s.lcu.get l).renderInhibited = false →
    let p := s.profile l
    let tF := nextTF s l ticks.toNat
    (p.renderLimit : Int) ≤ tF → ((s.lcu.get l).workingTarget * p.slackRatio / 256 : Nat) < tF →
    let net := (s.drum.get l).position - (s.lcu.get l).lockPosition
    ∃ t, exec (.goodSample l ticks) s = .next t
      ∧ t.sup.overloadCount = min 15 (s.sup.overloadCount + 1)
      ∧ t.sup.firstOverload = some (s.sup.firstOverload.getD
          ⟨l, tF, (net * p.stepUm).tdiv 1000, if s.sup.call.phase = .idle then none else some (s.sup.call.timeMs / 1000)⟩)
      ∧ (net < (s.reg.get l).allowance →
          let v := max p.vStop (min p.vMax (p.kr * (tF - p.renderLimit).toNat / 16))
          t.stateOf l = .rendering ∧ (t.reg.get l).rendering = true ∧ (t.reg.get l).speed = v
          ∧ (t.lcu.get l).intent = some ⟨.modulate, .stop, v, .hold, false⟩ ∧ Raised .render (.line l) s t
          ∧ (∀ k, (t.det.get l).counters.get k = 0 ∧ (t.det.get l).active.get k = false)
          ∧ (t.lmu.get l).rateClass = some .active ∧ CallFollows l s t)
      ∧ ((s.reg.get l).allowance ≤ net →
          t.stateOf l = .holding ∧ (t.lcu.get l).renderInhibited = true ∧ (t.sup.view.get l).renderInhibited = true
          ∧ (t.det.get l).counters.render = 0 ∧ (t.det.get l).active.render = true ∧ CallStays s t
          ∧ t.sup.rampPermit = rampCondition t.sup ∧ Raised .allowance (.line l) s t)
      ∧ (∀ m, m ≠ l → t.lineItems m = s.lineItems m) ∧ t.plan = s.plan ∧ t.handed = s.handed ∧ t.store = s.store
      ∧ t.outside = s.outside ∧ s.sameTraffic t

/-- A first slack confirmation in HOLDING with recover inhibited clear: above minus the allowance the line recovers; at or below
it the flag is set and the line stays HOLDING (R32, R85, R103). The call takes a recovering line's notice, and stays otherwise. -/
def Obligations.SlackConfirmationRecoversOrInhibits : Prop :=
  ∀ (s : State) (l : Line) (ticks : BitVec 24), sampleReady s l ticks = true → s.stateOf l = .holding →
    (s.det.get l).active.slack = false → (s.det.get l).counters.slack + 1 = max 1 (s.profile l).debounceIn →
    (s.lcu.get l).recoverInhibited = false →
    let p := s.profile l
    let tF := nextTF s l ticks.toNat
    tF < (p.renderLimit : Int) → tF ≤ ((s.lcu.get l).workingTarget * p.slackRatio / 256 : Nat) →
    let net := (s.drum.get l).position - (s.lcu.get l).lockPosition
    ∃ t, exec (.goodSample l ticks) s = .next t
      ∧ (-((s.reg.get l).allowance : Int) < net →
          t.stateOf l = .recovering
          ∧ (t.lcu.get l).intent = some ⟨.release, .haul, p.recoverSpeed, .hold, false⟩
          ∧ (∀ k, (t.det.get l).counters.get k = (if k = .target then (s.det.get l).counters.get k else 0)
              ∧ (t.det.get l).active.get k = false)
          ∧ (t.lmu.get l).rateClass = some .active ∧ CallFollows l s t)
      ∧ (net ≤ -((s.reg.get l).allowance : Int) →
          t.stateOf l = .holding ∧ (t.lcu.get l).recoverInhibited = true ∧ (t.sup.view.get l).recoverInhibited = true
          ∧ (t.det.get l).counters.slack = 0 ∧ (t.det.get l).active.slack = true ∧ CallStays s t
          ∧ t.sup.rampPermit = rampCondition t.sup ∧ Raised .allowance (.line l) s t)
      ∧ t.sup.overloadCount = s.sup.overloadCount
      ∧ (∀ m, m ≠ l → t.lineItems m = s.lineItems m) ∧ t.plan = s.plan ∧ t.handed = s.handed ∧ t.store = s.store
      ∧ t.outside = s.outside ∧ s.sameTraffic t

/-- The confirmations that end a tension, a recover, an ease or a rewind (R84, R86): TENSIONING is locked where it stands. A
condition that the new state watches too keeps its counter, and the line takes the rate class of the new state (R27, R7). The
call takes the notice: a TENSIONING line that makes the assigned set fast takes an ARRIVING call to MOORED with its made-fast
time, and an assigned line that goes to UNLATCHING takes a MOORED one to LETTING_GO (R132). -/
def Obligations.ConfirmationsMoveTheLine : Prop :=
  ∀ (s : State) (l : Line) (ticks : BitVec 24) (k : Condition) (old new : LineState) (i : Intent),
    sampleReady s l ticks = true → s.stateOf l = old →
    (s.det.get l).active.get k = false → (s.det.get l).counters.get k + 1 = max 1 (s.profile l).debounceIn →
    let p := s.profile l
    let tF := nextTF s l ticks.toNat
    ((k = .target ∧ old = .tensioning ∧ new = .holding ∧ i = ⟨.apply, .stop, 0, .hold, false⟩
        ∧ ((s.lcu.get l).workingTarget : Int) ≤ tF)
     ∨ (k = .target ∧ old = .recovering ∧ new = .holding ∧ i = ⟨.apply, .stop, 0, .hold, false⟩
        ∧ ((s.lcu.get l).workingTarget : Int) ≤ tF)
     ∨ (k = .release ∧ old = .easing ∧ new = .unlatching ∧ i = ⟨.apply, .stop, 0, .release, false⟩
        ∧ tF ≤ (p.releaseTension : Int))
     ∨ (k = .snag ∧ old = .rewinding ∧ new = .slackOut ∧ i = ⟨.apply, .stop, 0, .rest, false⟩
        ∧ (p.snagLimit : Int) ≤ tF ∧ outOfStep s l = true)) →
    ∃ t, exec (.goodSample l ticks) s = .next t ∧ t.stateOf l = new ∧ (t.lcu.get l).intent = some i
      ∧ (t.lcu.get l).timer = (if new = .unlatching then some ⟨.latch, max 1 p.latchLimit * 1000⟩ else none)
      ∧ (t.lcu.get l).lockPosition =
          (if old = .tensioning then (s.drum.get l).position else (s.lcu.get l).lockPosition)
      ∧ (old = .tensioning → (t.lcu.get l).renderInhibited = false ∧ (t.lcu.get l).recoverInhibited = false)
      ∧ (new = .holding → (t.lmu.get l).ref = (t.lmu.get l).tF ∧ (t.lmu.get l).tF = tF)
      ∧ (∀ j, (t.det.get l).counters.get j = (if watches new j then (s.det.get l).counters.get j else 0)
          ∧ (t.det.get l).active.get j = false)
      ∧ (t.lmu.get l).rateClass = classOf new (t.lmu.get l).counterView (t.lmu.get l).surgeView
      ∧ CallFollows l s t ∧ (old ≠ .recovering → t.sup.call.surgeCount = s.sup.call.surgeCount)
      ∧ (k = .snag → Raised .snag (.line l) s t) ∧ Raised .lineState (.line l) s t
      ∧ (∀ m, m ≠ l → t.lineItems m = s.lineItems m) ∧ t.plan = s.plan ∧ t.handed = s.handed ∧ t.store = s.store
      ∧ t.outside = s.outside ∧ s.sameTraffic t

/-- A sample of a render: V decays or follows the demand; below Vstop the render is held at Vstop above the exit threshold, and
ends at or below it (R100, R101). The recipients of a sample take it in any order (R17), so a detector that counts to 1 may
confirm a condition of HOLDING on the ending sample itself; the last clause is for two or more. -/
def Obligations.RenderIsRegulatedAndEnds : Prop :=
  ∀ (s : State) (l : Line) (ticks : BitVec 24), sampleReady s l ticks = true → s.stateOf l = .rendering →
    (s.reg.get l).rendering = true → (s.profile l).i ≠ 0 →
    let p := s.profile l
    let tF := nextTF s l ticks.toNat
    let v := (s.reg.get l).speed
    let dec := max 1 ((p.f + p.d * v / 4096 + (p.i - 1)) / p.i)
    let vNew := min p.vMax (max (v - dec) (p.kr * (tF - p.renderLimit).toNat / 16))
    let exit : Int := (p.renderLimit * (256 - p.renderHyst) / 256 : Nat)
    ∃ t, exec (.goodSample l ticks) s = .next t
      ∧ (p.vStop ≤ vNew →
          t.stateOf l = .rendering ∧ (t.reg.get l).rendering = true ∧ (t.reg.get l).speed = vNew
          ∧ (t.lcu.get l).intent = some ⟨.modulate, .stop, vNew, .hold, false⟩ ∧ CallStays s t)
      ∧ (vNew < p.vStop → exit < tF →
          t.stateOf l = .rendering ∧ (t.reg.get l).rendering = true ∧ (t.reg.get l).speed = p.vStop
          ∧ (t.lcu.get l).intent = some ⟨.modulate, .stop, p.vStop, .hold, false⟩ ∧ CallStays s t)
      ∧ (vNew < p.vStop → tF ≤ exit →
          2 ≤ p.debounceIn → (s.det.get l).counters.render = 0 → (s.det.get l).counters.slack = 0 →
          t.stateOf l = .holding ∧ (t.reg.get l).rendering = false ∧ (t.reg.get l).speed = 0
          ∧ (t.lmu.get l).ref = tF ∧ (t.lcu.get l).lockPosition = (s.lcu.get l).lockPosition
          ∧ (t.lcu.get l).renderInhibited = (s.lcu.get l).renderInhibited
          ∧ (t.lcu.get l).recoverInhibited = (s.lcu.get l).recoverInhibited ∧ Raised .render (.line l) s t
          ∧ CallFollows l s t)
      ∧ (∀ m, m ≠ l → t.lineItems m = s.lineItems m) ∧ t.plan = s.plan ∧ t.handed = s.handed ∧ t.store = s.store
      ∧ t.outside = s.outside ∧ s.sameTraffic t

/-- A confirmed surge start sets the flag, raises SURGE, is counted in the open call of an assigned line, and is told to the
Supervisor; a confirmed end clears the flag with the same event and leaves the count; the line's rate class follows the flag
(R7, R36, R37, R38). -/
def Obligations.SurgeStartsAndEnds : Prop :=
  ∀ (s : State) (l : Line) (ticks : BitVec 24), sampleReady s l ticks = true →
    (s.stateOf l = .holding ∨ s.stateOf l = .rendering ∨ s.stateOf l = .recovering) → s.sup.adoptionComplete = true →
    let p := s.profile l
    let size := (nextTF s l ticks.toNat - (s.lmu.get l).ref).natAbs
    let d := s.det.get l
    (d.surgeFlag = false → p.surgeThreshold ≤ size → d.surgeCounter + 1 = max 1 p.debounceIn →
      ∃ t, exec (.goodSample l ticks) s = .next t ∧ (t.det.get l).surgeFlag = true ∧ (t.det.get l).surgeCounter = 0
        ∧ (t.sup.view.get l).surge = true ∧ (t.lmu.get l).surgeView = true
        ∧ (t.lmu.get l).rateClass = classOf (t.stateOf l) (t.lmu.get l).counterView true
        ∧ t.sup.call = { s.sup.call with
            phase := t.sup.call.phase, madeFastTime := t.sup.call.madeFastTime
            surgeCount :=
              if s.sup.call.isOpen && s.sup.call.assigned.get l then min 65535 (s.sup.call.surgeCount + 1)
              else s.sup.call.surgeCount }
        ∧ t.sup.rampPermit = rampCondition t.sup ∧ Raised .surge (.line l) s t)
    ∧ (d.surgeFlag = true → size ≤ p.surgeThreshold * (256 - p.surgeHyst) / 256 → d.surgeCounter + 1 = max 1 p.debounceOut →
      ∃ t, exec (.goodSample l ticks) s = .next t ∧ (t.det.get l).surgeFlag = false ∧ (t.det.get l).surgeCounter = 0
        ∧ (t.sup.view.get l).surge = false ∧ (t.lmu.get l).surgeView = false
        ∧ (t.lmu.get l).rateClass = classOf (t.stateOf l) (t.lmu.get l).counterView false
        ∧ t.sup.call = { s.sup.call with phase := t.sup.call.phase, madeFastTime := t.sup.call.madeFastTime }
        ∧ t.sup.rampPermit = rampCondition t.sup ∧ Raised .surge (.line l) s t)

/-! ## Drum tracking and the repeater (chapter 3) -/

/-- A legal change steps the position by one, within its 32 bits, and restarts the stationary timer; the pins hold the new
levels (R43, R50). The step that reaches the allowance ends a render or a recover in HOLDING, lock kept, with the inhibit flag
(R105); one that passes the payout maximum does so for a render, halts an attach and fails an ease (R107); a step within half
the allowance clears both flags (R106); any other leaves state and flags. A changed soft zone indication is told to the line,
and a REWINDING one takes the soft or the rewind speed by it (R50, R63). Where a step meets a cut-off and half the allowance at
once either may be first, so no flag is stated there (log entry 12). -/
def Obligations.LegalChangeStepsThePosition : Prop :=
  ∀ (s : State) (l : Line) (a b : Bool) (step : Int), s.resetting = none → s.stateOf l ≠ .disabled →
    let d := s.drum.get l
    let q := Quad.ofPins ⟨a, b⟩
    ((d.decoder, q, step) = (.q0, .q1, 1) ∨ (d.decoder, q, step) = (.q1, .q2, 1) ∨ (d.decoder, q, step) = (.q2, .q3, 1)
      ∨ (d.decoder, q, step) = (.q3, .q0, 1) ∨ (d.decoder, q, step) = (.q1, .q0, -1) ∨ (d.decoder, q, step) = (.q2, .q1, -1)
      ∨ (d.decoder, q, step) = (.q3, .q2, -1) ∨ (d.decoder, q, step) = (.q0, .q3, -1)) →
    let position := max (-2147483648) (min 2147483647 (d.position + step))
    let c := s.lcu.get l
    let g := s.reg.get l
    let st := s.stateOf l
    let net := position - c.lockPosition
    let reached := (st = .rendering ∧ g.rendering = true ∧ (g.allowance : Int) ≤ net)
      ∨ (st = .recovering ∧ net ≤ -(g.allowance : Int))
    let passed := d.position < position ∧ d.referenced = true ∧ g.payoutMax ≠ 0 ∧ (g.payoutMax : Int) < position
    let cut := reached ∨ (passed ∧ ((st = .rendering ∧ g.rendering = true) ∨ st = .attaching ∨ st = .easing))
    let within := net.natAbs ≤ g.half
    let hold : Intent := ⟨.apply, .stop, 0, .hold, false⟩
    let soft := !d.referenced || decide (position ≤ d.softZoneSteps)
    let homeward : Intent :=
      ⟨.release, .haul, if soft then (s.profile l).softSpeed else (s.profile l).rewindSpeed, .rest, false⟩
    let retold := st = .rewinding ∧ soft ≠ d.softZone
    ∃ t, exec (.encoderChange l a b) s = .next t
      ∧ t.drum = s.drum.set l { d with
          decoder := q, position := position, stepAcc := d.stepAcc + step, stationaryTimer := some 1000
          stationary := false, softZone := soft }
      ∧ (t.lcu.get l).softZoneView = (if soft = d.softZone then c.softZoneView else soft)
      ∧ t.pins = { s.pins with encoder := s.pins.encoder.set l ⟨a, b⟩ }
      ∧ (∀ m, m ≠ l → t.lineItems m = s.lineItems m) ∧ t.store = s.store ∧ s.sameTraffic t
      ∧ (viewsAgree s l = true →
          (cut → CallFollows l s t ∧ t.sup.call.surgeCount = s.sup.call.surgeCount)
          ∧ (cut → st = .rendering ∨ st = .recovering →
            t.stateOf l = .holding ∧ (t.lcu.get l).intent = some hold ∧ (t.lcu.get l).lockPosition = c.lockPosition
            ∧ (t.reg.get l).stateView = .holding ∧ (t.sup.view.get l).state = .holding
            ∧ (t.lmu.get l).ref = (t.lmu.get l).tF ∧ (t.lmu.get l).tF = (s.lmu.get l).tF ∧ Raised .lineState (.line l) s t
            ∧ (st = .rendering →
                (t.reg.get l).rendering = false ∧ (t.reg.get l).speed = 0 ∧ Raised .render (.line l) s t
                ∧ (¬ within → (t.lcu.get l).renderInhibited = true
                  ∧ (c.renderInhibited = false → (t.sup.view.get l).renderInhibited = true)
                    ∧ (t.lcu.get l).recoverInhibited = c.recoverInhibited)
                ∧ (c.renderInhibited = false → Raised .allowance (.line l) s t) ∧ (passed → Raised .payoutEnd (.line l) s t))
            ∧ (st = .recovering →
                (¬ within → (t.lcu.get l).recoverInhibited = true
                  ∧ (c.recoverInhibited = false → (t.sup.view.get l).recoverInhibited = true)
                  ∧ (t.lcu.get l).renderInhibited = c.renderInhibited)
                ∧ (c.recoverInhibited = false → Raised .allowance (.line l) s t)))
          ∧ (passed → st = .attaching →
            t.stateOf l = .halted ∧ (t.lcu.get l).resume = some .attaching ∧ (t.lcu.get l).timer = none
            ∧ (t.lcu.get l).intent = some ⟨.apply, .stop, 0, .rest, false⟩ ∧ (t.sup.view.get l).state = .halted
            ∧ Raised .payoutEnd (.line l) s t ∧ Raised .lineState (.line l) s t)
          ∧ (passed → st = .easing →
            t.stateOf l = .holding ∧ (t.lcu.get l).intent = some hold ∧ (t.lcu.get l).timer = none
            ∧ (t.lcu.get l).lockPosition = c.lockPosition ∧ (t.lmu.get l).ref = (t.lmu.get l).tF
            ∧ Raised .payoutEnd (.line l) s t ∧ Raised .easeFailed (.line l) s t ∧ Raised .lineState (.line l) s t)
          ∧ (¬ cut →
            t.lcu.get l = { c with
                renderInhibited := c.renderInhibited && !decide within
                recoverInhibited := c.recoverInhibited && !decide within
                softZoneView := (t.lcu.get l).softZoneView, intent := if retold then some homeward else c.intent }
            ∧ (retold → Commanded l homeward s t) ∧ (¬ retold → t.bus.queue = s.bus.queue)
            ∧ t.sup.call = s.sup.call ∧ t.reg.get l = g
            ∧ (within → c.renderInhibited = true ∨ c.recoverInhibited = true → Raised .allowance (.line l) s t)))

/-- An illegal change counts an error and leaves the position; but for the sixteenth nothing else happens. The sixteenth takes
the reference away and raises ENCODER: the line goes to FAULT, or, if it is there, keeps its cause; the fault is counted, and
captured if none is (R44, R93, R144; the time of a fault that opens a call is the model's, log entry 60). A DISABLED line's inputs are followed and counted nowhere (R45), and a level pair that is the decoder state changes
nothing. That the selected line's repeater band goes with the reference is the model's reading (log entry 53). -/
def Obligations.OtherEncoderChanges : Prop :=
  ∀ (s : State) (l : Line) (a b : Bool), s.resetting = none →
    let d := s.drum.get l
    let q := Quad.ofPins ⟨a, b⟩
    let pins := { s.pins with encoder := s.pins.encoder.set l ⟨a, b⟩ }
    (s.stateOf l ≠ .disabled →
      ((d.decoder, q) = (.q0, .q2) ∨ (d.decoder, q) = (.q2, .q0) ∨ (d.decoder, q) = (.q1, .q3) ∨ (d.decoder, q) = (.q3, .q1)) →
      d.errorCount ≠ 15 →
      exec (.encoderChange l a b) s = .next (takeTx
        { s with
          pins := pins
          drum := s.drum.set l { d with
            decoder := q, errorCount := min 255 (d.errorCount + 1), stationaryTimer := some 1000, stationary := false } }))
    ∧ (s.stateOf l ≠ .disabled →
      ((d.decoder, q) = (.q0, .q2) ∨ (d.decoder, q) = (.q2, .q0) ∨ (d.decoder, q) = (.q1, .q3) ∨ (d.decoder, q) = (.q3, .q1)) →
      d.errorCount = 15 → s.store.applyPending.lines.get l = false → intentFits s l = true →
      ∃ t, exec (.encoderChange l a b) s = .next t ∧ s.sameTraffic t
        ∧ t.drum = s.drum.set l { d with
            decoder := q, errorCount := 16, stationaryTimer := some 1000, stationary := false, referenced := false
            softZone := true }
        ∧ t.repeater = (if s.repeater.selected = some l then { s.repeater with band := none } else s.repeater)
        ∧ t.stateOf l = .fault ∧ Raised .fault (.line l) s t
        ∧ FaultCaptured l .encoder s t ∧ (s.stateOf l = .fault → t.sup.call = s.sup.call)
        ∧ (let c := s.lcu.get l
           { t.lcu.get l with softZoneView := c.softZoneView } =
             if s.stateOf l = .fault then c
             else { c with
               state := .fault, resume := none, faultCause := some .encoder, timer := none, freshStatus := none
               freshSample := false
               intent := some
                 ⟨.apply, .stop, 0, if c.lastStatus.all (fun r => r.latch == .closed) then .hold else .rest, false⟩ })
        ∧ (s.stateOf l ≠ .fault →
            Entered l .fault none
              ⟨.apply, .stop, 0, if (s.lcu.get l).lastStatus.all (fun r => r.latch == .closed) then .hold else .rest, false⟩
              none s t)
        ∧ (d.softZone = false → (t.lcu.get l).softZoneView = true)
        ∧ (d.softZone = true → (t.lcu.get l).softZoneView = (s.lcu.get l).softZoneView)
        ∧ t.plan =
            (if s.stateOf l = .fault ∨ outOfStep s l = true then s.plan
             else { s.plan with state := .held, holdCause := some .lineFailed, delayRunning := false, stepTimer := none })
        ∧ (∀ m, m ≠ l → t.lineItems m = s.lineItems m) ∧ t.store = s.store
        ∧ t.handed = s.handed ∧ t.outside = { s.outside with pins := pins })
    ∧ ((s.stateOf l = .disabled ∨ q = d.decoder) →
      exec (.encoderChange l a b) s = .next (takeTx
        { s with pins := pins, drum := s.drum.set l { d with decoder := q } }))

/-- A step of the selected line that crosses a unit band moves the band and the pending count by one, the count within 1023; a
step within the band moves neither; the first referenced position gives the band (R55, R56). -/
def Obligations.RepeaterFollowsUnitCrossings : Prop :=
  ∀ (s : State) (l : Line) (a b : Bool) (step : Int), s.resetting = none → s.stateOf l ≠ .disabled →
    s.repeater.selected = some l → s.repeater.unitSteps ≠ 0 → (s.drum.get l).referenced = true →
    let d := s.drum.get l
    let q := Quad.ofPins ⟨a, b⟩
    ((q = d.decoder.next ∧ step = 1) ∨ (q = d.decoder.prev ∧ step = -1)) →
    -2147483648 ≤ d.position + step → d.position + step ≤ 2147483647 →
    let now := (d.position + step).fdiv s.repeater.unitSteps
    ∃ t, exec (.encoderChange l a b) s = .next t
      ∧ t.repeater =
          (match s.repeater.band with
           | none => { s.repeater with band := some now }
           | some old =>
             if old < now then
               { s.repeater with band := some (old + 1), pendingCount := min 1023 (s.repeater.pendingCount + 1) }
             else if now < old then
               { s.repeater with band := some (old - 1), pendingCount := max (-1023) (s.repeater.pendingCount - 1) }
             else s.repeater)

/-- The stationary timer's expiry sets the flag, and drops the selected line's pending count where the discard flag is set
(R52, R58). A flank expiry gives one edge for a pending count, in its direction, and restarts the timer; a flank delay of 0 is
1 ms (R57). Nothing else changes. -/
def Obligations.StationaryAndFlankExpiries : Prop :=
  ∀ (s : State) (l : Line) (n : Nat), s.resetting = none →
    ((s.drum.get l).stationaryTimer = some n →
      exec (.stationaryExpiry l) s = .next (takeTx
        { s with
          drum := s.drum.set l { s.drum.get l with stationaryTimer := none, stationary := true }
          repeater := { s.repeater with
            pendingCount :=
              if s.repeater.selected = some l ∧ s.store.workingBerth.discard = true then 0 else s.repeater.pendingCount } }))
    ∧ exec .flankExpiry s = .next (takeTx
      { s with
        repeater := { s.repeater with
          flankTimer := max 1 s.store.workingBerth.flankDelay
          pendingCount := s.repeater.pendingCount - s.repeater.pendingCount.sign
          output :=
            (match s.repeater.pendingCount.sign, s.repeater.output with
             | 1, .q0 => .q1 | 1, .q1 => .q2 | 1, .q2 => .q3 | 1, .q3 => .q0
             | -1, .q0 => .q3 | -1, .q3 => .q2 | -1, .q2 => .q1 | -1, .q1 => .q0
             | _, q => q) } })

/-- SELECT_REPEATER drops the pending count, records the selection, computes the unit steps from the line's step size and takes
the band from a referenced position; it answers OK (R54, R55). -/
def Obligations.SelectRepeaterTakesTheLine : Prop :=
  ∀ (s : State) (x : Option Byte) (y : Option Line),
    admitted s .shore (.selectRepeater x) = true → (y = x.bind lineOfByte) →
    (∀ l, y = some l → (s.store.working.get l).isSome = true ∧ (s.profile l).stepUm ≠ 0) →
    let unit := match y with | none => 0 | some l => s.store.workingBerth.repeaterUnit * 10000 / (s.profile l).stepUm
    ∃ t, exec (.selectRepeater .shore x) s = .next t ∧ Answered .shore (.selectRepeater x) ⟨.ok, .empty⟩ s t
      ∧ OnlyReply
          { s with repeater := { s.repeater with
              selected := y, pendingCount := 0, unitSteps := unit
              band := (match y with
                | none => none
                | some l =>
                  if unit ≠ 0 ∧ (s.drum.get l).referenced = true then some ((s.drum.get l).position.fdiv unit) else none) } } t

/-! ## Line commands, TRIP_ALL and the state timers (chapter 4) -/

/-- ATTACH sends an assigned line of an open call from STOWED or SLACK_OUT to ATTACHING (R70). What it leaves for a close that
reached the part together with it is the model's own (log entry 50). -/
def Obligations.AttachSendsTheLineOut : Prop :=
  ∀ (s : State) (sender : Sender) (b : Byte) (l : Line), lineOfByte b = some l →
    admitted s sender (.lineCommand b .attach) = true → (s.lcu.get l).planMark = false →
    s.sup.call.phase ≠ .idle → s.sup.call.assigned.get l = true →
    (s.lcu.get l).panel.stop = false → (s.lcu.get l).panel.trip = false →
    (s.stateOf l = .stowed ∨ s.stateOf l = .slackOut) →
    ∃ t, exec (.attach sender b) s = .next t ∧ Answered sender (.lineCommand b .attach) ⟨.ok, .empty⟩ s t
      ∧ Entered l .attaching none ⟨.drag, .stop, 0, .arm, false⟩
          (some ⟨.attach, max 1 (s.profile l).attachLimit * 1000⟩) s t
      ∧ LcuKept l s t ∧ t.drum.get l = s.drum.get l ∧ OnlyLine l s t
      ∧ (departHolds s → t.sup.closeChecked = some (match sender with | .shore => .shore | .vessel _ => .vessel, s.now))
      ∧ (¬ departHolds s → t.sup.closeChecked = s.sup.closeChecked)

/-- CANCEL takes an ATTACHING line, or one HALTED in attaching, to REWINDING; under STOP the halted line stays and only its
resume state changes, with the notice of it (R71, R60). The cases are those of log entry 39. -/
def Obligations.CancelRewindsOrChangesResume : Prop :=
  ∀ (s : State) (sender : Sender) (b : Byte) (l : Line), lineOfByte b = some l →
    admitted s sender (.lineCommand b .cancel) = true → (s.lcu.get l).planMark = false →
    let p := s.profile l
    let c := s.lcu.get l
    ((s.stateOf l = .attaching ∨ (s.stateOf l = .halted ∧ c.resume = some .attaching)) → c.panel.stop = false →
      outOfStep s l = true →
      ∃ t, exec (.cancel sender b) s = .next t ∧ Answered sender (.lineCommand b .cancel) ⟨.ok, .empty⟩ s t
        ∧ Entered l .rewinding none ⟨.release, .haul, if c.softZoneView then p.softSpeed else p.rewindSpeed, .rest, false⟩
            (some ⟨.rewind, max 1 p.rewindLimit * 1000⟩) s t
        ∧ LcuKept l s t ∧ t.drum.get l = s.drum.get l ∧ OnlyLine l s t)
    ∧ (s.stateOf l = .halted → c.resume = some .attaching → c.panel.stop = true →
      ∃ t, exec (.cancel sender b) s = .next t ∧ Answered sender (.lineCommand b .cancel) ⟨.ok, .empty⟩ s t
        ∧ t.lcu.get l = { c with resume := some .rewinding, intent := some ⟨.apply, .stop, 0, .rest, false⟩ }
        ∧ t.sup.view.get l = { s.sup.view.get l with
            state := .halted, latchIntent := some .rest, lastLatch := c.lastStatus.map (·.latch) }
        ∧ CallFollows l s t ∧ t.sup.call.surgeCount = s.sup.call.surgeCount
        ∧ Raised .lineState (.line l) s t ∧ t.drum.get l = s.drum.get l ∧ OnlyLine l s t)

/-- RELEASE takes a latched line to EASING, with the ramp clear and no STOP; a render in progress ends (R72, R102). A RELEASE of
an assigned line takes a MOORED call to LETTING_GO (R132). -/
def Obligations.ReleaseEasesTheLine : Prop :=
  ∀ (s : State) (sender : Sender) (b : Byte) (l : Line), lineOfByte b = some l →
    admitted s sender (.lineCommand b .release) = true → (s.lcu.get l).planMark = false →
    (s.lcu.get l).panel.rampClear = true → (s.lcu.get l).panel.stop = false →
    (s.stateOf l = .holding ∨ s.stateOf l = .rendering ∨ s.stateOf l = .recovering) →
    ∃ t, exec (.release sender b) s = .next t ∧ Answered sender (.lineCommand b .release) ⟨.ok, .empty⟩ s t
      ∧ Entered l .easing none ⟨.modulate, .stop, (s.profile l).easeSpeed, .hold, false⟩
          (some ⟨.ease, max 1 (s.profile l).easeLimit * 1000⟩) s t
      ∧ (viewsAgree s l = true → s.stateOf l = .rendering → (s.reg.get l).rendering = true →
          (t.reg.get l).rendering = false ∧ (t.reg.get l).speed = 0 ∧ Raised .render (.line l) s t)
      ∧ (t.det.get l).surgeFlag = false
      ∧ (viewsAgree s l = true → s.sup.adoptionComplete = true → s.sup.call.phase = .moored →
          s.sup.call.assigned.get l = true → t.sup.call = { s.sup.call with phase := .lettingGo } ∧ Raised .call .berth s t)
      ∧ LcuKept l s t ∧ t.drum.get l = s.drum.get l ∧ OnlyLine l s t

/-- REWIND hauls a SLACK_OUT line home (R73); RESUME takes a HALTED line to its resume state, with that state's timer at its
full limit (R74). -/
def Obligations.RewindAndResumeStartTheLine : Prop :=
  ∀ (s : State) (sender : Sender) (b : Byte) (l : Line), lineOfByte b = some l → (s.lcu.get l).planMark = false →
    (s.lcu.get l).panel.stop = false → outOfStep s l = true →
    let p := s.profile l
    let c := s.lcu.get l
    let home : Intent := ⟨.release, .haul, if c.softZoneView then p.softSpeed else p.rewindSpeed, .rest, false⟩
    (admitted s sender (.lineCommand b .rewind) = true → s.stateOf l = .slackOut →
      ∃ t, exec (.rewind sender b) s = .next t ∧ Answered sender (.lineCommand b .rewind) ⟨.ok, .empty⟩ s t
        ∧ Entered l .rewinding none home (some ⟨.rewind, max 1 p.rewindLimit * 1000⟩) s t
        ∧ LcuKept l s t ∧ t.drum.get l = s.drum.get l ∧ OnlyLine l s t)
    ∧ (∀ (new : LineState) (i : Intent) (k : TimerKind) (limit : Nat),
      ((c.resume = some .attaching ∧ new = .attaching ∧ i = ⟨.drag, .stop, 0, .arm, false⟩ ∧ k = .attach
          ∧ limit = p.attachLimit)
       ∨ (c.resume = some .tensioning ∧ new = .tensioning ∧ i = ⟨.release, .haul, p.haulSpeed, .hold, false⟩
          ∧ k = .tension ∧ limit = p.tensionLimit)
       ∨ (c.resume = some .easing ∧ new = .easing ∧ i = ⟨.modulate, .stop, p.easeSpeed, .hold, false⟩ ∧ k = .ease
          ∧ limit = p.easeLimit)
       ∨ (c.resume = some .rewinding ∧ new = .rewinding ∧ i = home ∧ k = .rewind ∧ limit = p.rewindLimit)) →
      admitted s sender (.lineCommand b .resume) = true → s.stateOf l = .halted →
      ∃ t, exec (.resume sender b) s = .next t ∧ Answered sender (.lineCommand b .resume) ⟨.ok, .empty⟩ s t
        ∧ Entered l new none i (some ⟨k, max 1 limit * 1000⟩) s t
        ∧ LcuKept l s t ∧ t.drum.get l = s.drum.get l ∧ OnlyLine l s t)

/-- TRIP takes every line to TRIPPED, plan mark or not, but one in DISABLED, STOWED, SLACK_OUT or REWINDING, which it
refuses, and one in TRIPPED, which stays (R90). That the entry queues its urgent COMMAND in every case is read from R90 (log
entry 15). -/
def Obligations.TripTakesTheLineToTripped : Prop :=
  ∀ (s : State) (sender : Sender) (b : Byte) (l : Line), lineOfByte b = some l →
    admitted s sender (.lineCommand b .trip) = true →
    ∃ t, exec (.trip sender b) s = .next t
      ∧ ((s.stateOf l = .stowed ∨ s.stateOf l = .slackOut ∨ s.stateOf l = .rewinding) →
          Answered sender (.lineCommand b .trip) ⟨.wrongState, .empty⟩ s t ∧ OnlyReply s t)
      ∧ (s.stateOf l = .tripped → Answered sender (.lineCommand b .trip) ⟨.ok, .empty⟩ s t ∧ OnlyReply s t)
      ∧ ((s.stateOf l ≠ .stowed ∧ s.stateOf l ≠ .slackOut ∧ s.stateOf l ≠ .rewinding ∧ s.stateOf l ≠ .tripped) →
          Answered sender (.lineCommand b .trip) ⟨.ok, .empty⟩ s t
          ∧ Entered l .tripped none ⟨.apply, .stop, 0, .release, true⟩
              (some ⟨.latch, max 1 (s.profile l).latchLimit * 1000⟩) s t
          ∧ (t.lcu.get l).faultCause = none ∧ Raised .trip (.line l) s t
          ∧ LcuKept l s t ∧ t.drum.get l = s.drum.get l ∧ OnlyLine l s t)

/-- SET_TARGET clamps the working target and answers the value used (R108); ZERO starts or restarts the zero capture of a STOWED
line (R76). Nothing else changes. -/
def Obligations.SetTargetAndZeroChangeOneItem : Prop :=
  ∀ (s : State) (sender : Sender) (b : Byte) (l : Line) (x : Half), lineOfByte b = some l → (s.lcu.get l).planMark = false →
    (admitted s sender (.lineCommand b (.setTarget x)) = true →
      let p := s.profile l
      let used := max p.targetMin (min p.targetMax x.toNat)
      ∃ t, exec (.setTarget sender b x) s = .next t
        ∧ Answered sender (.lineCommand b (.setTarget x)) ⟨.ok, .target used⟩ s t
        ∧ OnlyReply { s with lcu := s.lcu.set l { s.lcu.get l with workingTarget := used } } t)
    ∧ (admitted s .shore (.lineCommand b .zero) = true → s.stateOf l = .stowed →
      ∃ t, exec (.zero .shore b) s = .next t ∧ Answered .shore (.lineCommand b .zero) ⟨.ok, .empty⟩ s t
        ∧ OnlyReply { s with lmu := s.lmu.set l { s.lmu.get l with zeroCapture := some ⟨0, 0⟩ } } t)

/-- REBASE sets the lock position of a latched line to its position and clears both inhibit flags, with ALLOWANCE for each that
was set (R109). -/
def Obligations.RebaseMovesTheLock : Prop :=
  ∀ (s : State) (b : Byte) (l : Line), lineOfByte b = some l →
    admitted s .shore (.lineCommand b .rebase) = true → (s.lcu.get l).planMark = false →
    (s.stateOf l = .holding ∨ s.stateOf l = .rendering ∨ s.stateOf l = .recovering) →
    ∃ t, exec (.rebase .shore b) s = .next t ∧ Answered .shore (.lineCommand b .rebase) ⟨.ok, .empty⟩ s t
      ∧ t.lcu.get l = { s.lcu.get l with
          lockPosition := (s.drum.get l).position, renderInhibited := false, recoverInhibited := false }
      ∧ ((s.lcu.get l).renderInhibited = true ∨ (s.lcu.get l).recoverInhibited = true →
          Raised .allowance (.line l) s t ∧ t.sup.rampPermit = rampCondition t.sup)
      ∧ t.drum.get l = s.drum.get l ∧ t.reg.get l = s.reg.get l ∧ t.bus = s.bus ∧ t.sup.call = s.sup.call ∧ OnlyLine l s t

/-- CLEAR_FAULT takes a FAULT line to ADOPTING: no cause, no intent, the last status marked older, the error and failure counts
0, and a transaction in flight for the line no longer fresh (R77, R44, R149, R152). The blocks are told of it. -/
def Obligations.ClearFaultAdoptsAgain : Prop :=
  ∀ (s : State) (b : Byte) (l : Line), lineOfByte b = some l →
    admitted s .shore (.lineCommand b .clearFault) = true → (s.lcu.get l).planMark = false → s.stateOf l = .fault →
    ∃ t, exec (.clearFault .shore b) s = .next t ∧ Answered .shore (.lineCommand b .clearFault) ⟨.ok, .empty⟩ s t
      ∧ t.lcu.get l = { s.lcu.get l with
          state := .adopting, resume := none, faultCause := none, timer := none, intent := none
          lastStatus := (s.lcu.get l).lastStatus.map fun r => { r with old := true }
          freshStatus := none, freshSample := false }
      ∧ t.drum.get l = { s.drum.get l with errorCount := 0 }
      ∧ t.bus = { s.bus with
          modules := s.bus.modules.set l { s.bus.modules.get l with failures := 0 }
          inFlight := s.bus.inFlight.map fun f => if f.record.line = l then { f with fresh := false } else f }
      ∧ (t.lmu.get l).missCount = 0 ∧ (t.lmu.get l).rateClass = some .active ∧ Raised .lineState (.line l) s t
      ∧ viewsAgree t l = true ∧ (t.sup.view.get l).latchIntent = none
      ∧ CallFollows l s t ∧ t.sup.call.surgeCount = s.sup.call.surgeCount
      ∧ (∀ m, m ≠ l → t.lineItems m = s.lineItems m) ∧ t.plan = s.plan ∧ t.handed = s.handed
      ∧ t.repeater = s.repeater ∧ t.store = s.store ∧ t.outside = s.outside

/-- The line commands that the LCU refuses, each with the code of its first failing check, and without any change
(R69 to R77, R90, R109). -/
def Obligations.LineCommandsAreRefusedUnchanged : Prop :=
  ∀ (s : State) (sender : Sender) (b : Byte) (l : Line) (c : LineCommand) (code : ReplyCode), lineOfByte b = some l →
    admitted s sender (.lineCommand b c) = true →
    let x := s.lcu.get l
    let latchedLine := s.stateOf l = .holding ∨ s.stateOf l = .rendering ∨ s.stateOf l = .recovering
    ((c ≠ .trip ∧ x.planMark = true ∧ code = .lineInPlan)
     ∨ (x.planMark = false
        ∧ ((c = .attach ∧ (s.sup.call.phase = .idle ∨ s.sup.call.assigned.get l = false) ∧ code = .notAssigned)
           ∨ (c = .attach ∧ s.sup.call.phase ≠ .idle ∧ s.sup.call.assigned.get l = true ∧ x.panel.stop = true
                ∧ code = .stopped)
           ∨ (c = .attach ∧ s.sup.call.phase ≠ .idle ∧ s.sup.call.assigned.get l = true ∧ x.panel.stop = false
                ∧ x.panel.trip = true ∧ code = .tripActive)
           ∨ (c = .attach ∧ s.sup.call.phase ≠ .idle ∧ s.sup.call.assigned.get l = true ∧ x.panel.stop = false
                ∧ x.panel.trip = false ∧ s.stateOf l ≠ .stowed ∧ s.stateOf l ≠ .slackOut ∧ code = .wrongState)
           ∨ (c = .cancel ∧ s.stateOf l ≠ .attaching ∧ (s.stateOf l ≠ .halted ∨ x.resume ≠ some .attaching)
                ∧ code = .wrongState)
           ∨ (c = .release ∧ x.panel.rampClear = false ∧ code = .rampDown)
           ∨ (c = .release ∧ x.panel.rampClear = true ∧ x.panel.stop = true ∧ code = .stopped)
           ∨ (c = .release ∧ x.panel.rampClear = true ∧ x.panel.stop = false ∧ ¬ latchedLine ∧ code = .wrongState)
           ∨ ((c = .rewind ∨ c = .resume) ∧ x.panel.stop = true ∧ code = .stopped)
           ∨ (c = .rewind ∧ x.panel.stop = false ∧ s.stateOf l ≠ .slackOut ∧ code = .wrongState)
           ∨ (c = .resume ∧ x.panel.stop = false ∧ s.stateOf l ≠ .halted ∧ code = .wrongState)
           ∨ (c = .rebase ∧ ¬ latchedLine ∧ code = .wrongState)
           ∨ (c = .zero ∧ s.stateOf l ≠ .stowed ∧ code = .wrongState)
           ∨ (c = .clearFault ∧ s.stateOf l ≠ .fault ∧ code = .wrongState)))) →
    ∃ t, exec (lineRow sender b c) s = .next t ∧ Answered sender (.lineCommand b c) ⟨code, .empty⟩ s t ∧ OnlyReply s t

/-- TRIP_ALL is answered OK, trips every line that a TRIP would trip, leaves the other lines' states, and aborts a RUNNING or
HELD plan with cause TRIP, its marks cleared (R91, R125). A MOORED call of which a line is tripped lets go, and an adoption is
complete, no line being ADOPTING any more (R132, R197). That the entries queue their urgent COMMANDs in every case is read
from R90 (log entry 15); that a call is adopted only from what all lines are after the TRIP_ALL, by which none is latched, is the
model's reading (log entry 49). -/
def Obligations.TripAllTripsEveryLine : Prop :=
  ∀ (s : State) (sender : Sender), admitted s sender .tripAll = true →
    ∃ t, exec (.tripAll sender) s = .next t ∧ Answered sender .tripAll ⟨.ok, .empty⟩ s t
      ∧ (∀ l, (s.stateOf l ≠ .disabled ∧ s.stateOf l ≠ .stowed ∧ s.stateOf l ≠ .slackOut ∧ s.stateOf l ≠ .rewinding
            ∧ s.stateOf l ≠ .tripped) →
          (t.lcu.get l).state = .tripped ∧ (t.lcu.get l).intent = some ⟨.apply, .stop, 0, .release, true⟩
          ∧ (t.lcu.get l).timer = some ⟨.latch, max 1 (s.profile l).latchLimit * 1000⟩ ∧ Raised .trip (.line l) s t
          ∧ ∃ r ∈ t.bus.queue, r.line = l ∧ r.kind = .command ⟨.apply, .stop, 0, .release, true⟩ ∧ r.urgent = true)
      ∧ (∀ l, (s.stateOf l = .disabled ∨ s.stateOf l = .stowed ∨ s.stateOf l = .slackOut ∨ s.stateOf l = .rewinding
            ∨ s.stateOf l = .tripped) →
          { t.lcu.get l with planMark := (s.lcu.get l).planMark, markComing := (s.lcu.get l).markComing } = s.lcu.get l
          ∧ t.drum.get l = s.drum.get l)
      ∧ (s.plan.state = .running ∨ s.plan.state = .held →
          t.plan.state = .aborted ∧ t.plan.abortCause = some .trip ∧ t.plan.stepTimer = none
          ∧ (∀ l, (t.lcu.get l).planMark = false ∧ (t.lcu.get l).markComing = false) ∧ Raised .plan .berth s t)
      ∧ (s.plan.state ≠ .running → s.plan.state ≠ .held → t.plan = s.plan)
      ∧ (blocksAgree s →
          LinesLetGo (Lines.ofFn fun l =>
              !(s.stateOf l == .disabled || s.stateOf l == .stowed || s.stateOf l == .slackOut || s.stateOf l == .rewinding
                || s.stateOf l == .tripped)) s t
          ∧ t.sup.adoptionComplete = true)
      ∧ t.store = s.store ∧ t.repeater = s.repeater ∧ t.handed = s.handed ∧ t.outside = s.outside

/-- The attach timer's expiry rewinds the line with ATTACH_EXPIRED; the ease timer's returns it to HOLDING with EASE_FAILED, its
lock position and inhibit flags kept, and holds the plan whose issued step it is in (R65, R83, R119). -/
def Obligations.AttachAndEaseTimersEndWithoutFault : Prop :=
  ∀ (s : State) (l : Line) (n : Nat), s.resetting = none →
    let p := s.profile l
    let c := s.lcu.get l
    (s.stateOf l = .attaching → c.timer = some ⟨.attach, n⟩ → outOfStep s l = true →
      ∃ t, exec (.attachExpired l) s = .next t
        ∧ Entered l .rewinding none ⟨.release, .haul, if c.softZoneView then p.softSpeed else p.rewindSpeed, .rest, false⟩
            (some ⟨.rewind, max 1 p.rewindLimit * 1000⟩) s t
        ∧ Raised .attachExpired (.line l) s t ∧ LcuKept l s t ∧ OnlyLine l s t ∧ s.sameTraffic t)
    ∧ (s.stateOf l = .easing → c.timer = some ⟨.ease, n⟩ →
      ∃ t, exec (.easeFailed l) s = .next t
        ∧ Entered l .holding none ⟨.apply, .stop, 0, .hold, false⟩ none s t
        ∧ Raised .easeFailed (.line l) s t ∧ LcuKept l s t ∧ (t.lmu.get l).ref = (t.lmu.get l).tF
        ∧ (t.lmu.get l).tF = (s.lmu.get l).tF
        ∧ (outOfStep s l = true → OnlyLine l s t)
        ∧ (outOfStep s l = false →
            t.plan = { s.plan with state := .held, holdCause := some .lineFailed, delayRunning := false, stepTimer := none }
            ∧ Raised .plan .berth s t ∧ t.handed = s.handed ∧ t.outside = s.outside
            ∧ ∀ m, m ≠ l → t.lineItems m = s.lineItems m)
        ∧ s.sameTraffic t)

/-- The four timer expiries that end in FAULT, each with its cause; the fault is counted, and captured if none is; a plan
whose issued step the line is in is held LINE_FAILED (R66, R93, R144, R195, R119). A Line Profile whose apply is pending is
applied at this entry, and takes the line on to DISABLED where its enabled option is clear (R24, R189). The order of the
notices of a fault (log entries 14, 60) and of the apply and an entry into DISABLED (log entry 40) are the model's. -/
def Obligations.TimersThatFault : Prop :=
  ∀ (s : State) (l : Line) (n : Nat) (i : Instr) (cause : FaultCause), s.resetting = none →
    let c := s.lcu.get l
    let waits := s.store.applyPending.lines.get l
    let p := lineProfileOf (s.store.stored.lines.get l).bytes
    (waits = true → p.stepUm ≠ 0) →
    ((i = .tensionTimeout l ∧ s.stateOf l = .tensioning ∧ c.timer = some ⟨.tension, n⟩ ∧ cause = .tensionTimeout)
     ∨ (i = .latchStuck l ∧ (s.stateOf l = .unlatching ∨ s.stateOf l = .tripped) ∧ c.timer = some ⟨.latch, n⟩
        ∧ cause = .latchStuck)
     ∨ (i = .rewindTimeout l ∧ s.stateOf l = .rewinding ∧ c.timer = some ⟨.rewind, n⟩ ∧ cause = .rewindTimeout)
     ∨ (i = .adoptionLatchExpiry l ∧ s.stateOf l = .adopting ∧ c.timer = some ⟨.latch, n⟩ ∧ cause = .latchStuck)) →
    ∃ t, exec i s = .next t
      ∧ (waits = false ∨ p.enabled = true →
          Entered l .fault none
            ⟨.apply, .stop, 0, if c.lastStatus.all (fun r => r.latch == .closed) then .hold else .rest, false⟩ none s t
          ∧ (t.lcu.get l).faultCause = some cause)
      ∧ Raised .fault (.line l) s t ∧ FaultCaptured l cause s t
      ∧ (waits = false → LcuKept l s t ∧ t.drum.get l = s.drum.get l ∧ t.repeater = s.repeater ∧ t.store = s.store)
      ∧ (waits = true → Applied l p .fault false s t)
      ∧ (∀ m, m ≠ l → t.lineItems m = s.lineItems m)
      ∧ t.plan =
          (if outOfStep s l then s.plan
           else { s.plan with state := .held, holdCause := some .lineFailed, delayRunning := false, stepTimer := none })
      ∧ t.handed = s.handed ∧ t.outside = s.outside ∧ s.sameTraffic t

/-! ## Let-go plans (chapter 6) -/

/-- A PLAN_SUBMIT that passes the checks of R112 starts its plan: the record, the marks, phase LETTING_GO, PLAN, and the
delays used in the reply; a first step without a delay is issued at once (R111, R113, R115). Whether the lines take their marks
and their commands in the same event, or these are on their way, is free (log entries 57, 61). The hold cause that is absent
outside HELD is read from the rules (log entry 44). -/
def Obligations.SubmittedPlanStarts : Prop :=
  ∀ (s : State) (sender : Sender) (first : PlanStepField) (rest : List PlanStepField),
    let steps := first :: rest
    admitted s sender (.planSubmit steps) = true → s.plan.state ≠ .running → s.plan.state ≠ .held →
    (s.sup.call.phase = .moored ∨ s.sup.call.phase = .lettingGo) → s.sup.adoptionComplete = true →
    s.plan.panelRampClear = true → s.plan.panelStop = false →
    steps.length ≤ 8 → (∀ k, k < steps.length → goodStep s (steps.take k) (steps.getD k first)) →
    let delay := min 120 first.delay.toNat
    let mode : StepMode := if first.mode = .trip then .trip else .ease
    let marked (now : Bool) := s.lcu.imap fun l c =>
      if steps.any fun f => f.lines.get l then
        { c with planMark := c.planMark || now, markComing := c.markComing || !now }
      else c
    ∃ t, ∃ atOnce marksNow : Bool, exec (.planSubmit sender steps) s = .next t
      ∧ Answered sender (.planSubmit steps) ⟨.ok, .delays (steps.map fun f => min 120 f.delay.toNat)⟩ s t
      ∧ ((delay = 0 → atOnce = true → easeTaken (heldStep first) s) →
          t.plan = { s.plan with
            state := .running, owner := some (match sender with | .shore => .shore | .vessel _ => .vessel)
            steps := steps.map heldStep, current := some 1, holdCause := none, abortCause := none
            phase := some (if delay = 0 then .issued else .delay), delayRemaining := delay * 500
            delayRunning := decide (delay ≠ 0)
            stepTimer := if delay = 0 then some (s.store.workingBerth.stepLimit * 1000) else none })
      ∧ Raised .plan .berth s t ∧ (s.sup.call.phase = .moored → Raised .call .berth s t)
      ∧ t.sup.call = { s.sup.call with phase := .lettingGo } ∧ t.sup.rampPermit = false
      ∧ (delay ≠ 0 → OnlyPorts { s with
          plan := t.plan, lcu := marked marksNow, choices := s.choices + 1
          sup := { s.sup with
            call := { s.sup.call with phase := .lettingGo }, rampPermit := false
            departPermit := departPermitCondition s.sup } } t)
      ∧ (delay = 0 → HandedOn (stepCommand first.lines mode) atOnce s t
          ∧ ((atOnce = true → easeTaken (heldStep first) s) →
              StepTaken first.lines mode atOnce { s with lcu := marked marksNow } t)
          ∧ (atOnce = true → marksNow = true))

/-- A PLAN_SUBMIT is refused with the code of its first failing check, BAD_PLAN with the number of the first failing step; the
record and everything else stay (R112). -/
def Obligations.PlanSubmitIsRefusedUnchanged : Prop :=
  ∀ (s : State) (sender : Sender) (steps : List PlanStepField) (reply : Reply),
    admitted s sender (.planSubmit steps) = true →
    let busy := s.plan.state = .running ∨ s.plan.state = .held
    let open_ := s.sup.call.phase = .moored ∨ s.sup.call.phase = .lettingGo
    let ready := ¬ busy ∧ open_ ∧ s.plan.panelRampClear = true ∧ s.plan.panelStop = false
    ((busy ∧ reply = ⟨.planBusy, .empty⟩)
     ∨ (¬ busy ∧ ¬ open_ ∧ reply = ⟨.wrongState, .empty⟩)
     ∨ (¬ busy ∧ open_ ∧ s.plan.panelRampClear = false ∧ reply = ⟨.rampDown, .empty⟩)
     ∨ (¬ busy ∧ open_ ∧ s.plan.panelRampClear = true ∧ s.plan.panelStop = true ∧ reply = ⟨.stopped, .empty⟩)
     ∨ (ready ∧ (steps.length = 0 ∨ 8 < steps.length) ∧ reply = ⟨.badPlan, .step 0⟩)
     ∨ (ready ∧ 1 ≤ steps.length ∧ steps.length ≤ 8 ∧ ∃ k, k < steps.length
          ∧ (∀ j, j < k → goodStep s (steps.take j) (steps.getD j default))
          ∧ ¬ goodStep s (steps.take k) (steps.getD k default) ∧ reply = ⟨.badPlan, .step (k + 1)⟩)) →
    ∃ t, exec (.planSubmit sender steps) s = .next t ∧ Answered sender (.planSubmit steps) reply s t ∧ OnlyReply s t

/-- PLAN_HOLD holds a RUNNING plan, its delay paused and its step timer discarded, and is answered OK in HELD and NO_PLAN
without a plan (R120, R121). PLAN_ABORT ends a RUNNING or HELD plan, every mark cleared, and is NO_PLAN otherwise (R124).
What an aborted plan keeps besides is read from R124 (log entry 44). -/
def Obligations.HoldAndAbortAct : Prop :=
  ∀ (s : State) (sender : Sender),
    let none_ := s.plan.state = .none ∨ s.plan.state = .done ∨ s.plan.state = .aborted
    (admitted s sender .planHold = true →
      ∃ t, exec (.planHold sender) s = .next t
        ∧ (s.plan.state = .running → Answered sender .planHold ⟨.ok, .empty⟩ s t
            ∧ OnlyEvent .plan .berth { s with plan := { s.plan with
                state := .held, holdCause := some .holdRequest, delayRunning := false, stepTimer := none } } t)
        ∧ (s.plan.state = .held → Answered sender .planHold ⟨.ok, .empty⟩ s t ∧ OnlyReply s t)
        ∧ (none_ → Answered sender .planHold ⟨.noPlan, .empty⟩ s t ∧ OnlyReply s t))
    ∧ (admitted s sender .planAbort = true →
      ∃ t, exec (.planAbort sender) s = .next t
        ∧ ((s.plan.state = .running ∨ s.plan.state = .held) → Answered sender .planAbort ⟨.ok, .empty⟩ s t
            ∧ OnlyEvent .plan .berth { s with
                plan := { s.plan with
                  state := .aborted, abortCause := some .request, holdCause := none, delayRunning := false
                  stepTimer := none }
                lcu := s.lcu.imap fun _ c => { c with planMark := false, markComing := false } } t)
        ∧ (none_ → Answered sender .planAbort ⟨.noPlan, .empty⟩ s t ∧ OnlyReply s t))

/-- PLAN_RESUME from the owner restarts a HELD plan: a delay runs on; an issued step whose lines are all clear advances; else
the latched lines of the step take its command again, its HALTED lines a RESUME, and the step timer restarts; a MOORED call of
such a line lets go (R132). The lines take their commands in the same event, or the commands are on their way; which is free (log
entry 57). Every refusal leaves all as it was (R122, R118). The order within one resumption (log entry 43) and what an advanced or
DONE plan keeps, its hold cause absent (log entry 44), are the model's. -/
def Obligations.PlanResumeRestartsThePlan : Prop :=
  ∀ (s : State) (sender : Sender), admitted s sender .planResume = true →
    let master : Master := match sender with | .shore => .shore | .vessel _ => .vessel
    let ready := s.plan.state = .held ∧ s.plan.owner = some master ∧ s.plan.panelStop = false ∧ s.plan.panelRampClear = true
    let running := { s.plan with state := .running, holdCause := none }
    (∀ code : ReplyCode,
      (((s.plan.state = .none ∨ s.plan.state = .done ∨ s.plan.state = .aborted) ∧ code = .noPlan)
       ∨ ((s.plan.state = .running ∨ s.plan.state = .held) ∧ s.plan.owner ≠ some master ∧ code = .notOwner)
       ∨ (s.plan.state = .running ∧ s.plan.owner = some master ∧ code = .wrongState)
       ∨ (s.plan.state = .held ∧ s.plan.owner = some master ∧ s.plan.panelStop = true ∧ code = .stopped)
       ∨ (s.plan.state = .held ∧ s.plan.owner = some master ∧ s.plan.panelStop = false ∧ s.plan.panelRampClear = false
            ∧ code = .rampDown)) →
      ∃ t, exec (.planResume sender) s = .next t ∧ Answered sender .planResume ⟨code, .empty⟩ s t ∧ OnlyReply s t)
    ∧ (∀ (n : Nat) (st : PlanStep), ready → s.plan.current = some (n + 1) → s.plan.steps[n]? = some st →
      let delayed := s.plan.phase = some .delay ∧ 0 < s.plan.delayRemaining
      let unnamed := fun l => s.stateOf l = .disabled ∨ s.stateOf l = .adopting ∨ s.stateOf l = .attaching
        ∨ s.stateOf l = .tensioning ∨ s.stateOf l = .fault
      let clear := fun l => s.stateOf l = .slackOut ∨ s.stateOf l = .rewinding ∨ s.stateOf l = .stowed
      let taken : LineSet := Lines.ofFn fun l => st.lines.get l && latched (s.stateOf l)
      let halted : LineSet := Lines.ofFn fun l => st.lines.get l && s.stateOf l == .halted
      ((∃ l, st.lines.get l = true ∧ unnamed l) →
        ∃ t, exec (.planResume sender) s = .next t ∧ Answered sender .planResume ⟨.wrongState, .empty⟩ s t ∧ OnlyReply s t)
      ∧ (delayed → (∀ l, st.lines.get l = true → ¬ unnamed l) →
        ∃ t, exec (.planResume sender) s = .next t ∧ Answered sender .planResume ⟨.ok, .empty⟩ s t
          ∧ OnlyEvent .plan .berth { s with plan := { running with delayRunning := true } } t)
      ∧ (¬ delayed → (∀ l, st.lines.get l = true → clear l) →
        ∃ t, ∃ atOnce : Bool, exec (.planResume sender) s = .next t ∧ Answered sender .planResume ⟨.ok, .empty⟩ s t
          ∧ StepAdvanced n st.lines running none atOnce s t ∧ StepKept s t ∧ Raised .plan .berth s t
          ∧ (∀ next, s.plan.steps[n + 1]? = some next →
              (next.delay = 0 → issuable next none s → (atOnce = true → easeTaken next s) → blocksAgree s →
                LinesLetGo (takenNow atOnce next.lines) s t)
              ∧ (next.delay ≠ 0 ∨ ¬ issuable next none s → t.sup.call = s.sup.call))
          ∧ (n + 1 = s.plan.steps.length →
              t = { s with plan := t.plan, lcu := t.lcu, shore := t.shore, vessel := t.vessel }))
      ∧ (¬ delayed → (∀ l, st.lines.get l = true → ¬ unnamed l) →
        (∃ l, st.lines.get l = true ∧ ¬ clear l) →
        let issued := { running with phase := some .issued, stepTimer := some (s.store.workingBerth.stepLimit * 1000) }
        let waiting := ∃ l, st.lines.get l = true ∧ ¬ clear l
          ∧ (s.stateOf l = .halted → (s.lcu.get l).resume ≠ some .rewinding)
        ∃ t, exec (.planResume sender) s = .next t ∧ Answered sender .planResume ⟨.ok, .empty⟩ s t
          ∧ StepKept s t ∧ Raised .plan .berth s t
          ∧ ((HandedOn (resumed st s) false s t ∧ t.plan = issued ∧ (∀ l, t.lineItems l = s.lineItems l)
                ∧ t.sup.call = s.sup.call)
             ∨ (s.handed = []
                ∧ ((st.mode = .ease → ∀ l, taken.get l = true →
                      (s.lcu.get l).panel.rampClear = true ∧ (s.lcu.get l).panel.stop = false) →
                   (∀ l, halted.get l = true → (s.lcu.get l).panel.stop = false ∧ (s.lcu.get l).resume ≠ none) →
                   waiting →
                   t.handed = [] ∧ t.plan = issued ∧ LinesStepped taken st.mode s t
                   ∧ (∀ l r, halted.get l = true → (s.lcu.get l).resume = some r →
                       LineSent l (resumeEntry s l r).1 (resumeEntry s l r).2.1 (resumeEntry s l r).2.2 s t)
                   ∧ (∀ l, taken.get l = false → halted.get l = false → t.lineItems l = s.lineItems l)
                   ∧ (blocksAgree s →
                       LinesLetGo (Lines.ofFn fun l => taken.get l || (halted.get l && (s.lcu.get l).resume == some .easing))
                         s t))
                ∧ ((∀ l, halted.get l = true → (s.lcu.get l).panel.stop = false) → ¬ waiting →
                   (∀ l, halted.get l = true → t.stateOf l = .rewinding ∧ Raised .lineState (.line l) s t)
                   ∧ (t.plan.state = .done ∨ t.plan.current = some (n + 2)))))))

/-- The delay timer's expiry issues the current step if every line of it is latched, and for an EASE step the ramp clear; else
the plan is HELD LINE_NOT_READY and no line is issued (R115). A MOORED call of an issued line lets go (R132). The step timer's
expiry holds the plan STEP_TIMEOUT (R117). The lines take their commands in the event of the issue, or the commands are on their
way; which is free (log entry 57). A command on its way that its line still takes moves it as a master's command would (R72, R74,
R90), and a RESUME that makes the last line clear advances the step (R118). One that the LCU refuses, by a STOP activation, a
RAMP_CLEAR release or a TRIP that came before it, leaves its line, and takes a RUNNING plan whose current step the line is in to
HELD LINE_NOT_READY; in any other case the plan stays as it was (R116, R120). -/
def Obligations.PlanTimersIssueOrHold : Prop :=
  (∀ (s : State) (n : Nat) (st : PlanStep), s.resetting = none → s.plan.state = .running →
    s.plan.current = some (n + 1) → s.plan.steps[n]? = some st →
    let ready := (∀ l, st.lines.get l = true →
        s.stateOf l = .holding ∨ s.stateOf l = .rendering ∨ s.stateOf l = .recovering)
      ∧ (st.mode = .trip ∨ s.plan.panelRampClear = true)
    (s.plan.phase = some .delay → s.plan.delayRunning = true → ready →
      ∃ t, ∃ atOnce : Bool, exec .stepDelayExpiry s = .next t ∧ s.sameTraffic t
        ∧ HandedOn (stepCommand st.lines st.mode) atOnce s t
        ∧ ((atOnce = true → easeTaken st s) →
            t.plan = { s.plan with
              phase := some .issued, stepTimer := some (s.store.workingBerth.stepLimit * 1000), delayRemaining := 0
              delayRunning := false }
            ∧ StepTaken st.lines st.mode atOnce s t
            ∧ (blocksAgree s → LinesLetGo (takenNow atOnce st.lines) s t)))
    ∧ (s.plan.phase = some .delay → s.plan.delayRunning = true → ¬ ready →
      ∃ t, exec .stepDelayExpiry s = .next t ∧ s.sameTraffic t
        ∧ OnlyEvent .plan .berth { s with plan := { s.plan with
            state := .held, holdCause := some .lineNotReady, delayRemaining := 0, delayRunning := false
            stepTimer := none } } t)
    ∧ (s.plan.stepTimer.isSome = true →
      ∃ t, exec .stepTimeout s = .next t ∧ s.sameTraffic t
        ∧ OnlyEvent .plan .berth { s with plan := { s.plan with
            state := .held, holdCause := some .stepTimeout, delayRunning := false, stepTimer := none } } t))
  ∧ (∀ (s : State) (h : Handed), s.resetting = none →
      let l := h.line
      let inStep := s.plan.state = .running ∧ s.plan.currentLines.get l = true
      let arrives := takeTx (takeHanded s h)
      let moved (new : LineState) (i : Intent) (timer : StateTimer) :=
        Entered l new none i (some timer) s arrives ∧ LcuKept l s arrives ∧ arrives.drum.get l = s.drum.get l
        ∧ OnlyLine l s arrives ∧ s.sameTraffic arrives
      (refusedAt s h = true → ¬ inStep → arrives = takeTx s)
      ∧ (refusedAt s h = true → inStep → s.sameTraffic arrives
          ∧ OnlyEvent .plan .berth { s with plan := { s.plan with
              state := .held, holdCause := some .lineNotReady, delayRunning := false, stepTimer := none } } arrives)
      ∧ (refusedAt s h = false → h.command = .release → moved .easing (stepIntent s l .ease) (stepTimerOf s l .ease))
      ∧ (h.command = .trip → s.stateOf l = .tripped → arrives = takeTx s)
      ∧ (refusedAt s h = false → h.command = .trip → s.stateOf l ≠ .tripped →
          moved .tripped (stepIntent s l .trip) (stepTimerOf s l .trip) ∧ Raised .trip (.line l) s arrives)
      ∧ (∀ r, refusedAt s h = false → h.command = .resume → (s.lcu.get l).resume = some r →
          let stays := outOfStep s l = true ∨ r ≠ .rewinding
            ∨ ∃ m, m ≠ l ∧ s.plan.currentLines.get m = true
                ∧ s.stateOf m ≠ .slackOut ∧ s.stateOf m ≠ .rewinding ∧ s.stateOf m ≠ .stowed
          (stays → moved (resumeEntry s l r).1 (resumeEntry s l r).2.1 (resumeEntry s l r).2.2)
          ∧ (¬ stays → ∀ n st, s.plan.current = some (n + 1) → s.plan.steps[n]? = some st →
              arrives.stateOf l = .rewinding ∧ Raised .lineState (.line l) s arrives ∧ Raised .plan .berth s arrives
              ∧ (∃ atOnce, StepAdvanced n st.lines s.plan (some l) atOnce s arrives
                  ∧ CallAdvances n s.plan l atOnce s arrives)
              ∧ StepKept s arrives ∧ s.sameTraffic arrives)))

/-- A latch that reports OPEN on the last line of an issued step that is not clear yet takes the line to REWINDING or
SLACK_OUT, from UNLATCHING or from TRIPPED, and advances the step: the next step becomes current with its delay, or at once
issued or HELD without one, or the plan is DONE (R81, R115, R118). Where no step is issued, the call takes the line's notice,
by which one that lets go is CLEAR with its last line off (R132). Whether the lines of an issued step take their commands in the
same event is free (log entry 57). What a DONE plan keeps (log entry 44) and which bytes of the STATUS are decoded (log entry
21) are the model's. -/
def Obligations.ClearedStepAdvances : Prop :=
  ∀ (s : State) (l : Line) (bytes : StatusBytes) (f : InFlight) (n : Nat) (st : PlanStep), s.resetting = none →
    s.bus.inFlight = some f → f.record.line = l → f.record.kind = .status →
    let b := sixBytes f bytes
    b.latch = 0#8 → b.stow = 0#8 → b.faultCode = 0#8 →
    s.plan.state = .running → s.plan.phase = some .issued →
    s.plan.current = some (n + 1) → s.plan.steps[n]? = some st → st.lines.get l = true →
    (∀ m, m ≠ l → st.lines.get m = true → s.stateOf m = .slackOut ∨ s.stateOf m = .rewinding ∨ s.stateOf m = .stowed) →
    ((s.stateOf l = .unlatching ∧ ((s.profile l).autoRewind = false ∨ (s.lcu.get l).panel.stop = false))
      ∨ s.stateOf l = .tripped) →
    ∃ t, ∃ atOnce : Bool, exec (.statusComplete bytes) s = .next t
      ∧ t.stateOf l = (if s.stateOf l = .unlatching ∧ (s.profile l).autoRewind = true then .rewinding else .slackOut)
      ∧ Raised .lineState (.line l) s t ∧ Raised .plan .berth s t
      ∧ StepAdvanced n st.lines s.plan (some l) atOnce s t
      ∧ CallAdvances n s.plan l atOnce s t
      ∧ t.store = s.store ∧ t.repeater = s.repeater ∧ t.drum = s.drum
      ∧ t.outside = { s.outside with activity := .idle, stuckTimer := none } ∧ s.sameTraffic t

/-! ## The call, the captures and the panel (chapter 7) -/

/-- BIND opens an IDLE call, with the captures and peaks cleared and the phase MOORED at once if every line of it is latched
(R130, R132), or binds an adopted call, adding the requested lines that are STOWED or SLACK_OUT (R131). Its refusals change
nothing (R130). The vessel code bound is the message's (log entry 23). -/
def Obligations.BindOpensOrBindsTheCall : Prop :=
  ∀ (s : State) (code : Half) (lines : LineSet), admitted s (.vessel code) (.bind lines) = true →
    let c := s.sup.call
    let number := if c.number = 65535 then 0 else c.number + 1
    let some_ := ∃ l, lines.get l = true
    let enabled := ∀ l, lines.get l = true → s.stateOf l ≠ .disabled
    let bound := c.phase ≠ .idle ∧ ∃ v, c.vesselCode = some v ∧ v ≠ 0#16
    let held := ∀ l, lines.get l = true → latched (s.sup.view.get l).state = true
    let added : LineSet := Lines.ofFn fun l => c.assigned.get l
      || (lines.get l && ((s.sup.view.get l).state == .stowed || (s.sup.view.get l).state == .slackOut))
    (s.sup.adoptionComplete = true → code ≠ 0#16 → some_ → enabled → c.phase = .idle →
      ∃ t, exec (.bind code lines) s = .next t ∧ Answered (.vessel code) (.bind lines) ⟨.ok, .call number lines⟩ s t
        ∧ t.sup.call.vesselCode = some code ∧ t.sup.call.assigned = lines ∧ t.sup.call.number = number
        ∧ t.sup.call.timeMs = 0 ∧ t.sup.call.surgeCount = 0
        ∧ (held → t.sup.call.phase = .moored ∧ t.sup.call.madeFastTime = some 0)
        ∧ (¬ held → t.sup.call.phase = .arriving ∧ t.sup.call.madeFastTime = none)
        ∧ t.sup.rampPermit = rampCondition t.sup ∧ t.sup.departPermit = departPermitCondition t.sup
        ∧ Raised .call .berth s t
        ∧ OnlyPorts { s with
            sup := { s.sup with
              call := t.sup.call, firstOverload := none, firstFault := none, overloadCount := 0, faultCount := 0
              rampPermit := t.sup.rampPermit, departPermit := t.sup.departPermit }
            lmu := s.lmu.imap fun l m => { m with peak := 0, assignedView := lines.get l } } t)
    ∧ (s.sup.adoptionComplete = true → code ≠ 0#16 → some_ → enabled → c.phase ≠ .idle → ¬ bound →
      ∃ t, exec (.bind code lines) s = .next t ∧ Answered (.vessel code) (.bind lines) ⟨.ok, .call number added⟩ s t
        ∧ t.sup.call = { c with vesselCode := some code, assigned := added, number := number }
        ∧ t.sup.rampPermit = rampCondition t.sup ∧ t.sup.departPermit = departPermitCondition t.sup
        ∧ Raised .call .berth s t
        ∧ OnlyPorts { s with
            sup := { s.sup with
              call := t.sup.call, rampPermit := t.sup.rampPermit, departPermit := t.sup.departPermit }
            lmu := s.lmu.imap fun l m => { m with assignedView := added.get l } } t)
    ∧ (∀ reply : ReplyCode,
      ((s.sup.adoptionComplete = false ∧ reply = .wrongState)
       ∨ (s.sup.adoptionComplete = true ∧ (code = 0#16 ∨ ¬ some_) ∧ reply = .badFrame)
       ∨ (s.sup.adoptionComplete = true ∧ code ≠ 0#16 ∧ some_ ∧ ¬ enabled ∧ reply = .lineDisabled)
       ∨ (s.sup.adoptionComplete = true ∧ code ≠ 0#16 ∧ some_ ∧ enabled ∧ bound ∧ reply = .callOpen)) →
      ∃ t, exec (.bind code lines) s = .next t ∧ Answered (.vessel code) (.bind lines) ⟨reply, .empty⟩ s t
        ∧ OnlyReply s t)

/-- UNBIND from the bound vessel and CLOSE_CALL from the shore close an open call while the Depart condition holds: call, plan,
marks, working targets and assignments; otherwise they are refused and change nothing (R126, R133, R135). Where the other
master's ATTACH of the same millisecond was taken first, with the Depart condition holding before it, the close may have been
checked already and then closes the call with that line ATTACHING (R133): what reaches the part together, that either comes
about, and what a close leaves for an ATTACH, is the model's (log entry 50). PLAN at every close and the DISABLED lines' targets
are read from the rules (log entries 26, 27), and so is the berth code of the reply to an UNBIND that lets a pending Berth
Profile apply (log entry 42). -/
def Obligations.CallClosesWhenClear : Prop :=
  ∀ (s : State) (sender : Sender) (r : Request) (i : Instr),
    ((∃ code, sender = .vessel code ∧ r = .unbind ∧ i = .unbind code)
      ∨ (sender = .shore ∧ r = .closeCall ∧ i = .closeCall .shore)) →
    admitted s sender r = true →
    let attacher : Master := match sender with | .shore => .vessel | .vessel _ => .shore
    let together := s.sup.closeChecked = some (attacher, s.now)
    (s.sup.call.phase ≠ .idle → departHolds s →
      ∃ t, exec i s = .next t ∧ Answered sender r ⟨.ok, .empty⟩ s t ∧ Closed s.sup.adoptionComplete (sender = .shore) s t)
    ∧ (s.sup.call.phase ≠ .idle → ¬ departHolds s → ¬ together →
      ∃ t, exec i s = .next t ∧ Answered sender r ⟨.callNotClear, .empty⟩ s t ∧ OnlyReply s t)
    ∧ (s.sup.call.phase ≠ .idle → ¬ departHolds s → together →
      ∃ t, exec i s = .next t
        ∧ ((Answered sender r ⟨.ok, .empty⟩ s t ∧ Closed false (sender = .shore) { s with choices := s.choices + 1 } t)
           ∨ (Answered sender r ⟨.callNotClear, .empty⟩ s t ∧ OnlyReply { s with choices := s.choices + 1 } t)))
    ∧ (s.sup.call.phase = .idle → sender = .shore →
      ∃ t, exec i s = .next t ∧ Answered sender r ⟨.wrongState, .empty⟩ s t ∧ OnlyReply s t)

/-- A change of a panel input's raw level restarts its stability timer at 20 ms; an expiry at the debounced level changes nothing
else; a change of RAMP_CLEAR, and a release of STOP or TRIP, is told to the LCU and the Sequencer, re-evaluates the permits, and
moves no line (R139, R140, R141). -/
def Obligations.PanelInputsSettle : Prop :=
  ∀ (s : State) (x : Bool), s.resetting = none →
    let u := s.sup
    (exec (.panelInputChange .trip x) s = .next (takeTx (if s.pins.trip = x then s else
        { s with pins := { s.pins with trip := x }, sup := { u with trip := { u.trip with timer := some 20 } } })))
    ∧ (exec (.panelInputChange .stop x) s = .next (takeTx (if s.pins.stop = x then s else
        { s with pins := { s.pins with stop := x }, sup := { u with stop := { u.stop with timer := some 20 } } })))
    ∧ (exec (.panelInputChange .rampClear x) s = .next (takeTx (if s.pins.rampClear = x then s else
        { s with pins := { s.pins with rampClear := x }
                 sup := { u with rampClear := { u.rampClear with timer := some 20 } } })))
    ∧ (u.trip.timer.isSome = true → s.pins.trip = u.trip.level →
        exec (.panelStabilityExpiry .trip) s =
          .next (takeTx { s with sup := { u with trip := { u.trip with timer := none } } }))
    ∧ (u.stop.timer.isSome = true → s.pins.stop = u.stop.level →
        exec (.panelStabilityExpiry .stop) s =
          .next (takeTx { s with sup := { u with stop := { u.stop with timer := none } } }))
    ∧ (u.rampClear.timer.isSome = true → s.pins.rampClear = u.rampClear.level →
        exec (.panelStabilityExpiry .rampClear) s =
          .next (takeTx { s with sup := { u with rampClear := { u.rampClear with timer := none } } }))
    ∧ (u.rampClear.timer.isSome = true → s.pins.rampClear ≠ u.rampClear.level →
        ∃ t, exec (.panelStabilityExpiry .rampClear) s = .next t ∧ s.sameTraffic t
          ∧ t.sup.rampPermit = rampCondition t.sup ∧ t.sup.departPermit = departPermitCondition t.sup
          ∧ t = { s with
              sup := { u with
                rampClear := ⟨s.pins.rampClear, none⟩, rampPermit := t.sup.rampPermit, departPermit := t.sup.departPermit }
              lcu := s.lcu.imap fun _ c => { c with panel := ⟨u.stop.level, u.trip.level, s.pins.rampClear⟩ }
              plan := { s.plan with panelStop := u.stop.level, panelRampClear := s.pins.rampClear }
              shore := t.shore, vessel := t.vessel })
    ∧ (u.stop.timer.isSome = true → s.pins.stop = false → u.stop.level = true →
        ∃ t, exec (.panelStabilityExpiry .stop) s = .next t ∧ s.sameTraffic t ∧ Raised .stop .berth s t
          ∧ t.sup.rampPermit = rampCondition t.sup ∧ t.sup.departPermit = departPermitCondition t.sup
          ∧ t = { s with
              sup := { u with
                stop := ⟨false, none⟩, rampPermit := t.sup.rampPermit, departPermit := t.sup.departPermit }
              lcu := s.lcu.imap fun _ c => { c with panel := ⟨false, u.trip.level, u.rampClear.level⟩ }
              plan := { s.plan with panelStop := false, panelRampClear := u.rampClear.level }
              shore := t.shore, vessel := t.vessel })
    ∧ (u.trip.timer.isSome = true → s.pins.trip = false → u.trip.level = true →
        ∃ t, exec (.panelStabilityExpiry .trip) s = .next t ∧ s.sameTraffic t ∧ Raised .trip .berth s t
          ∧ t.sup.rampPermit = rampCondition t.sup ∧ t.sup.departPermit = departPermitCondition t.sup
          ∧ t = { s with
              sup := { u with
                trip := ⟨false, none⟩, rampPermit := t.sup.rampPermit, departPermit := t.sup.departPermit }
              lcu := s.lcu.imap fun _ c => { c with panel := ⟨u.stop.level, false, u.rampClear.level⟩ }
              shore := t.shore, vessel := t.vessel })

/-- A STOP activation halts every line in ATTACHING, TENSIONING, EASING and REWINDING, with its resume state, and holds a
RUNNING plan STOP; the other lines are told the level and move nowhere (R87, R88, R123, R140). A TRIP activation trips every
trippable line, ADOPTING included, and aborts a RUNNING or HELD plan TRIP (R91, R125, R141). The call follows the lines: one
that lets go is CLEAR where the halted lines leave nothing off the vessel, and a MOORED one lets go for an assigned line that is
tripped (R132, R135); a TRIP completes an adoption (R197; what call it adopts is the model's reading, log entry 49). The
statement holds for every order of the lines (log entry 9). With RELEASEs and RESUMEs of the Sequencer on their way, these are
still on their way after a STOP activation; or, freely, the channels have refused them before the Sequencer takes the STOP, and a
refusal for a line of the current step holds a RUNNING plan LINE_NOT_READY first (R116, R120, log entry 57). The Sequencer's
place among the recipients otherwise (log entry 14), the urgent COMMAND of every line tripped, from UNLATCHING too (log entry
15), what an aborted plan keeps (log entry 44), and that a line ATTACHING at the activation is tripped, against an example of
R141 (log entry 55), are the model's. -/
def Obligations.PanelActivationsHaltAndTrip : Prop :=
  ∀ s : State, s.resetting = none →
    let u := s.sup
    (u.stop.timer.isSome = true → s.pins.stop = true → u.stop.level = false →
      ∃ t, ∃ cause : HoldCause, exec (.panelStabilityExpiry .stop) s = .next t ∧ s.sameTraffic t ∧ Raised .stop .berth s t
        ∧ t.sup.stop = ⟨true, none⟩ ∧ t.sup.rampPermit = false
        ∧ ((t.handed = s.handed ∧ cause = .stop)
           ∨ (s.handed ≠ [] ∧ t.handed = s.handed.filter (fun h => h.command == .trip)
              ∧ cause = (if ∃ h ∈ s.handed, h.command ≠ .trip ∧ s.plan.currentLines.get h.line = true then .lineNotReady
                  else .stop)))
        ∧ t.plan = { s.plan with
            panelStop := true, panelRampClear := u.rampClear.level
            state := if s.plan.state = .running then .held else s.plan.state
            holdCause := if s.plan.state = .running then some cause else s.plan.holdCause
            delayRunning := if s.plan.state = .running then false else s.plan.delayRunning
            stepTimer := if s.plan.state = .running then none else s.plan.stepTimer }
        ∧ (∀ l,
            let c := { s.lcu.get l with panel := ⟨true, u.trip.level, u.rampClear.level⟩ }
            let halted (r : Resume) (h : LatchIntent) : LcuChannel :=
              { c with
                state := .halted, resume := some r, intent := some ⟨.apply, .stop, 0, h, false⟩, timer := none
                faultCause := none, freshStatus := none, freshSample := false }
            (s.stateOf l = .attaching → t.lcu.get l = halted .attaching .rest)
            ∧ (s.stateOf l = .tensioning → t.lcu.get l = halted .tensioning .hold)
            ∧ (s.stateOf l = .easing → t.lcu.get l = halted .easing .hold)
            ∧ (s.stateOf l = .rewinding → t.lcu.get l = halted .rewinding .rest)
            ∧ (s.stateOf l = .attaching ∨ s.stateOf l = .tensioning ∨ s.stateOf l = .easing ∨ s.stateOf l = .rewinding →
                Raised .lineState (.line l) s t ∧ (t.sup.view.get l).state = .halted)
            ∧ (s.stateOf l ≠ .attaching → s.stateOf l ≠ .tensioning → s.stateOf l ≠ .easing → s.stateOf l ≠ .rewinding →
                t.lineItems l = { s.lineItems l with lcu := c }))
        ∧ (blocksAgree s → t.sup.adoptionComplete = s.sup.adoptionComplete
            ∧ (s.sup.call.phase = .lettingGo → departHolds t →
                t.sup.call = { s.sup.call with phase := .clear } ∧ Raised .call .berth s t)
            ∧ (s.sup.call.phase ≠ .lettingGo ∨ ¬ departHolds t → t.sup.call = s.sup.call))
        ∧ t.drum = s.drum ∧ t.repeater = s.repeater ∧ t.store = s.store
        ∧ t.outside = { s.outside with stop := ⟨true, none⟩ })
    ∧ (u.trip.timer.isSome = true → s.pins.trip = true → u.trip.level = false →
      ∃ t, exec (.panelStabilityExpiry .trip) s = .next t ∧ s.sameTraffic t ∧ Raised .trip .berth s t
        ∧ t.sup.trip = ⟨true, none⟩ ∧ t.sup.rampPermit = false
        ∧ t.plan = (if s.plan.state = .running ∨ s.plan.state = .held then
            { s.plan with
              state := .aborted, abortCause := some .trip, holdCause := none, delayRunning := false, stepTimer := none }
           else s.plan)
        ∧ (∀ l,
            let c := { s.lcu.get l with
              panel := ⟨u.stop.level, true, u.rampClear.level⟩
              planMark := (s.lcu.get l).planMark && !(s.plan.state == .running || s.plan.state == .held)
              markComing := (s.lcu.get l).markComing && !(s.plan.state == .running || s.plan.state == .held) }
            let stays := s.stateOf l = .disabled ∨ s.stateOf l = .stowed ∨ s.stateOf l = .slackOut
              ∨ s.stateOf l = .rewinding ∨ s.stateOf l = .tripped
            (stays → t.lineItems l = { s.lineItems l with lcu := c })
            ∧ (¬ stays → Raised .trip (.line l) s t ∧ (t.sup.view.get l).state = .tripped
                ∧ t.lcu.get l = { c with
                    state := .tripped, resume := none, intent := some ⟨.apply, .stop, 0, .release, true⟩
                    timer := some ⟨.latch, max 1 (s.profile l).latchLimit * 1000⟩
                    faultCause := none, freshStatus := none, freshSample := false }
                ∧ ∃ r ∈ t.bus.queue, r.line = l ∧ r.kind = .command ⟨.apply, .stop, 0, .release, true⟩ ∧ r.urgent = true))
        ∧ (blocksAgree s →
            LinesLetGo (Lines.ofFn fun l =>
                !(s.stateOf l == .disabled || s.stateOf l == .stowed || s.stateOf l == .slackOut || s.stateOf l == .rewinding
                  || s.stateOf l == .tripped)) s t
            ∧ t.sup.adoptionComplete = true)
        ∧ t.drum = s.drum ∧ t.repeater = s.repeater ∧ t.store = s.store ∧ t.handed = s.handed
        ∧ t.outside = { s.outside with trip := ⟨true, none⟩ })

/-! ## The Drive Bus (chapter 8) -/

/-- The head of the queue goes on the bus at its module's address, in its first phase, with the index and a COMMAND's five bytes
in the buffer, and with the stuck timer at 25 ms for its start condition (R147, R148, R156, R157, R183); a COMMAND's success
clears the module's count and frees the bus (R150, R158); a bus recovery ends (R157). Nothing else changes. -/
def Obligations.TransactionsStartAndEnd : Prop :=
  ∀ (s : State) (r : BusRecord) (rest : List BusRecord) (f : InFlight), s.resetting = none →
    (s.bus.activity = .idle → s.bus.queue = r :: rest →
      exec .transactionStart s = .next (takeTx { s with bus := { s.bus with
        queue := rest, activity := .transaction, stuckTimer := some 25
        inFlight := some {
          record := r, address := (s.profile r.line).driveAddress, phase := .start, fresh := true
          buffer := match r.kind with
            | .status => [0x10#8]
            | .command i =>
              [0x00#8,
               (match i.brake with | .apply => 0#8 | .release => 1#8 | .drag => 2#8 | .modulate => 3#8),
               (match i.drive with | .stop => 0#8 | .haul => 1#8),
               BitVec.ofNat 8 (i.speed / 256), BitVec.ofNat 8 i.speed,
               (match i.latch with | .rest => 0#8 | .arm => 1#8 | .hold => 2#8 | .release => 3#8)] } } }))
    ∧ (∀ i, s.bus.inFlight = some f → f.record.kind = .command i →
      exec .commandComplete s = .next (takeTx { s with bus := { s.bus with
        inFlight := none, activity := .idle, stuckTimer := none
        modules := s.bus.modules.set f.record.line { s.bus.modules.get f.record.line with failures := 0 } } }))
    ∧ (s.bus.activity = .recovery →
      exec .busRecoveryEnd s = .next (takeTx { s with bus := { s.bus with activity := .idle } }))

/-- A failed transaction is counted with its phase; a STATUS is dropped; a COMMAND is dropped if a newer one waits, goes back
to the head of its band, or after the third failure to the tail; the third failure takes the line to FAULT DRIVE_LOST, or is
only counted there (R158, R159, R160, R157). An acknowledge can be missing at the address, which a STATUS sends twice, at the
index and in a COMMAND's data, while the transaction has not gone past that phase: a STATUS in its data phase takes no such
failure (R150, R151). That a failure which cannot come about changes nothing, and that an end may come from any earlier phase,
are the model's (log entries 2, 21), and so are the record's place at the third failure (log entry 34) and the time of a fault
that opens a call (log entry 60). -/
def Obligations.FailuresAreCountedAndRequeued : Prop :=
  ∀ (s : State) (f : InFlight) (c : Instr) (phase : FailurePhase) (next : BusActivity), s.resetting = none →
    s.bus.inFlight = some f →
    (∀ why, ¬ stillAhead f why → exec (.transactionFailed why) s = .next (takeTx s)) ∧
    (((c = .transactionFailed .absent ∧ stillAhead f .absent ∧ phase = .absent ∧ next = .idle)
     ∨ (c = .transactionFailed .indexRefused ∧ stillAhead f .indexRefused ∧ phase = .indexRefused ∧ next = .idle)
     ∨ (c = .transactionFailed .dataRefused ∧ stillAhead f .dataRefused ∧ phase = .dataRefused ∧ next = .idle)
     ∨ (c = .busStuck ∧ phase = .busStuck ∧ next = .recovery)) →
    let l := f.record.line
    let r := f.record
    let q := s.bus.queue
    let count := (s.bus.modules.get l).failures
    let waits := q.any fun x => x.line == l && x.kind != .status
    let bus := { s.bus with
      inFlight := none, activity := next, stuckTimer := none
      modules := s.bus.modules.set l ⟨min 255 (count + 1), phase⟩
      queue :=
        if r.kind = .status ∨ waits = true then q
        else if 2 ≤ count then q ++ [{ r with urgent := false }]
        else if r.urgent then r :: q
        else q.takeWhile (·.urgent) ++ r :: q.dropWhile (·.urgent) }
    (count ≠ 2 ∨ s.stateOf l = .disabled → exec c s = .next (takeTx { s with bus := bus }))
    ∧ (count = 2 → s.stateOf l = .fault →
        ∃ t, exec c s = .next t ∧ s.sameTraffic t
          ∧ OnlyEvent .fault (.line l) { s with bus := bus, sup := t.sup } t
          ∧ t.sup = { s.sup with faultCount := t.sup.faultCount, firstFault := t.sup.firstFault }
          ∧ FaultCaptured l .driveLost s t)
    ∧ (count = 2 → s.stateOf l ≠ .fault → s.stateOf l ≠ .disabled → s.store.applyPending.lines.get l = false →
        ∃ t, exec c s = .next t ∧ s.sameTraffic t
          ∧ Entered l .fault none ⟨.apply, .stop, 0,
              if (s.lcu.get l).lastStatus.all (fun r => r.latch == .closed) then .hold else .rest, false⟩ none
              { s with bus := bus } t
          ∧ (t.lcu.get l).faultCause = some .driveLost ∧ Raised .fault (.line l) s t
          ∧ FaultCaptured l .driveLost s t ∧ LcuKept l s t
          ∧ t.bus.modules = bus.modules ∧ t.bus.activity = next ∧ t.bus.inFlight = none
          ∧ (∀ m, m ≠ l → t.lineItems m = s.lineItems m) ∧ t.store = s.store ∧ t.repeater = s.repeater))

/-- A status report takes a line on: the latch tests of R80 and R81 and the stow test of R82, each with the state's intent and
timer (R61, R64); a CLOSED latch on a line HALTED in attaching makes its resume state TENSIONING (R80); a report that takes no
test only replaces the last sensed status (R78). The call takes the notice: with the last line off, one that lets go is CLEAR
(R132, R135). A Line Profile whose apply is pending is applied at the entry into STOWED, with a zero capture started where
auto-zero is set, and takes the line on to DISABLED where its enabled option is clear (R24, R189). The bus is idle again, the
module's count 0 (R152, R158). That the bytes already in the buffer are the ones decoded, and the command brings the others (log
entry 21), the order of the Drum Counter and the LCU, by which a step size that the apply changes may or may not leave the
position referenced (log entry 10), and the order of an apply and an entry into DISABLED (log entry 40) are the model's. -/
def Obligations.StatusMovesTheLine : Prop :=
  ∀ (s : State) (l : Line) (bytes : StatusBytes) (f : InFlight) (old new : LineState) (resume : Option Resume) (i : Intent)
    (timer : Option StateTimer), s.resetting = none →
    s.bus.inFlight = some f → f.record.line = l → f.record.kind = .status → s.stateOf l = old →
    outOfStep s l = true → viewsAgree s l = true →
    intentFits s l = true →
    let b := sixBytes f bytes
    let c := s.lcu.get l
    let p := s.profile l
    let waits := s.store.applyPending.lines.get l
    let waiting := lineProfileOf (s.store.stored.lines.get l).bytes
    let opened := b.latch = 0#8 ∧ b.stow = 0#8
    let closed := b.latch = 1#8 ∧ b.stow = 0#8
    (takesNoTest s l b → b.stow = 0#8 →
      exec (.statusComplete bytes) s = .next (takeTx { s with
        bus := busAfterStatus s l, lcu := s.lcu.set l { c with lastStatus := some (reportOf b) } }))
    ∧ ((b.faultCode = 0#8 ∨ ∃ q, c.lastStatus = some q ∧ q.faultCode = b.faultCode) →
      old = .halted → c.resume = some .attaching → closed →
      let hold : Intent := ⟨.apply, .stop, 0, .hold, false⟩
      ∃ t, exec (.statusComplete bytes) s = .next t ∧ s.sameTraffic t
        ∧ t.lineItems l = { s.lineItems l with
            lcu := { c with lastStatus := some (reportOf b), resume := some .tensioning, intent := some hold }
            view := { s.sup.view.get l with state := .halted, latchIntent := some .hold, lastLatch := some .closed } }
        ∧ Commanded l hold { s with bus := busAfterStatus s l } t ∧ Raised .lineState (.line l) s t
        ∧ CallFollows l s t ∧ t.sup.call.surgeCount = s.sup.call.surgeCount
        ∧ t.bus.modules = (busAfterStatus s l).modules ∧ t.bus.activity = .idle ∧ t.bus.inFlight = none
        ∧ (∀ m, m ≠ l → t.lineItems m = s.lineItems m) ∧ t.plan = s.plan ∧ t.handed = s.handed
        ∧ t.repeater = s.repeater ∧ t.store = s.store)
    ∧ ((b.faultCode = 0#8 ∨ ∃ q, c.lastStatus = some q ∧ q.faultCode = b.faultCode) →
    let rest : Intent := ⟨.apply, .stop, 0, .rest, false⟩
    let rewind : Intent := ⟨.release, .haul, if c.softZoneView then p.softSpeed else p.rewindSpeed, .rest, false⟩
    ((old = .attaching ∧ closed ∧ new = .tensioning ∧ resume = none ∧ i = ⟨.release, .haul, p.haulSpeed, .hold, false⟩
        ∧ timer = some ⟨.tension, max 1 p.tensionLimit * 1000⟩)
     ∨ (old = .rewinding ∧ closed ∧ new = .slackOut ∧ resume = none ∧ i = rest ∧ timer = none)
     ∨ (old = .unlatching ∧ opened ∧ p.autoRewind = true ∧ c.panel.stop = false ∧ new = .rewinding ∧ resume = none
          ∧ i = rewind ∧ timer = some ⟨.rewind, max 1 p.rewindLimit * 1000⟩)
     ∨ (old = .unlatching ∧ opened ∧ p.autoRewind = true ∧ c.panel.stop = true ∧ new = .halted ∧ resume = some .rewinding
          ∧ i = rest ∧ timer = none)
     ∨ (old = .unlatching ∧ opened ∧ p.autoRewind = false ∧ new = .slackOut ∧ resume = none ∧ i = rest ∧ timer = none)
     ∨ (old = .tripped ∧ opened ∧ new = .slackOut ∧ resume = none ∧ i = rest ∧ timer = none)
     ∨ ((old = .rewinding ∨ old = .slackOut ∨ (old = .halted ∧ c.resume = some .rewinding)) ∧ b.stow ≠ 0#8
          ∧ b.latch ≠ 1#8 ∧ new = .stowed ∧ resume = none ∧ i = rest ∧ timer = none)) →
    (new = .stowed → waits = true → waiting.stepUm ≠ 0) →
    let applies := new = .stowed ∧ waits = true
    ∃ t, exec (.statusComplete bytes) s = .next t ∧ s.sameTraffic t
      ∧ (t.lcu.get l).lockPosition = c.lockPosition ∧ (t.lcu.get l).planMark = c.planMark
      ∧ (t.lcu.get l).markComing = c.markComing
      ∧ (¬ applies ∨ waiting.enabled = true →
          (t.lcu.get l).lastStatus = some (reportOf b) ∧ Entered l new resume i timer { s with bus := busAfterStatus s l } t)
      ∧ (old = .rewinding → new = .slackOut → Raised .snag (.line l) s t)
      ∧ (new = .stowed → (t.drum.get l).position = 0)
      ∧ (new = .stowed → waits = false ∨ (waiting.enabled = true ∧ p.stepUm = waiting.stepUm) →
          (t.drum.get l).referenced = true)
      ∧ (new ≠ .stowed → t.drum = s.drum ∧ t.repeater = s.repeater)
      ∧ (¬ applies → (t.lcu.get l).workingTarget = c.workingTarget ∧ t.bus.modules = (busAfterStatus s l).modules
          ∧ t.store = s.store)
      ∧ (applies → Applied l waiting .stowed true { s with bus := busAfterStatus s l } t)
      ∧ t.bus.activity = .idle ∧ t.bus.inFlight = none
      ∧ (∀ m, m ≠ l → t.lineItems m = s.lineItems m) ∧ t.plan = s.plan ∧ t.handed = s.handed)

/-- A report faults the line with DRIVE_FAULT for a new fault code, and with LATCH_LOST for an OPEN latch that should hold (R79,
R81); sets a FAULT line's latch intent and counts a new code there (R61, R63, R79); derives an ADOPTING line that has its fresh
sample, the last of which completes the adoption, and opens a call over the lines of the latched family if there is one (R194,
R195, R197, R146; its call number and surge count are the model's, log entry 54); and otherwise is only recorded (R78), but that
a stow mark references the position, which leaves the state but where it meets the cut-off of R105 (R47, R106). A FAULT line's
latch intent at every change, its second fault, the order of the Drum Counter and the LCU, the soft zone indication that a
referencing sets, and that the bytes already in the buffer are the ones decoded are the model's reading (log entries 37, 38, 10,
52, 21), and so is the time of a fault that opens a call (log entry 60). -/
def Obligations.StatusFaultsAdoptsOrIsRecorded : Prop :=
  ∀ (s : State) (l : Line) (bytes : StatusBytes) (f : InFlight), s.resetting = none →
    s.bus.inFlight = some f → f.record.line = l → f.record.kind = .status →
    let b := sixBytes f bytes
    let c := s.lcu.get l
    let old := s.stateOf l
    let report : SensedStatus := ⟨b.brake, if b.latch = 0#8 then .opened else if b.latch = 1#8 then .closed else .moving,
      b.stow != 0#8, b.drive, b.faultCode, b.sequence, false⟩
    let bus := { s.bus with
      inFlight := none, activity := .idle, stuckTimer := none
      modules := s.bus.modules.set l { s.bus.modules.get l with failures := 0 } }
    let newCode := b.faultCode ≠ 0#8 ∧ ∀ q, c.lastStatus = some q → q.faultCode ≠ b.faultCode
    let faultIntent : Intent := ⟨.apply, .stop, 0, if b.latch = 1#8 then .hold else .rest, false⟩
    let holds := old = .holding ∨ old = .rendering ∨ old = .recovering ∨ old = .tensioning ∨ old = .easing
      ∨ (old = .halted ∧ (c.resume = some .tensioning ∨ c.resume = some .easing))
    (∀ cause : FaultCause, s.store.applyPending.lines.get l = false → outOfStep s l = true → viewsAgree s l = true →
      ((newCode ∧ old ≠ .disabled ∧ old ≠ .adopting ∧ old ≠ .fault ∧ cause = .driveFault)
       ∨ (¬ newCode ∧ holds ∧ b.latch = 0#8 ∧ cause = .latchLost)
       ∨ (old = .adopting ∧ f.fresh = true ∧ c.freshSample = true ∧ b.faultCode ≠ 0#8 ∧ cause = .driveFault)) →
      ∃ t, exec (.statusComplete bytes) s = .next t ∧ s.sameTraffic t
        ∧ t.stateOf l = .fault ∧ (t.lcu.get l).faultCause = some cause ∧ (t.lcu.get l).intent = some faultIntent
        ∧ (t.lcu.get l).lastStatus = some report ∧ Raised .fault (.line l) s t
        ∧ FaultCaptured l cause s t
        ∧ (b.stow = 0#8 → Entered l .fault none faultIntent none { s with bus := bus } t ∧ t.drum = s.drum)
        ∧ (∀ m, m ≠ l → t.lineItems m = s.lineItems m) ∧ t.plan = s.plan ∧ t.handed = s.handed ∧ t.store = s.store)
    ∧ (old = .fault → b.stow = 0#8 →
      ∃ t, exec (.statusComplete bytes) s = .next t ∧ s.sameTraffic t
        ∧ t.lcu = s.lcu.set l { c with
            lastStatus := some report
            intent := if c.lastStatus.map (·.latch) = some report.latch then c.intent else some faultIntent }
        ∧ t.sup.faultCount = (if c.lastStatus.all (fun q => q.faultCode != b.faultCode) && b.faultCode != 0#8
            then min 15 (s.sup.faultCount + 1) else s.sup.faultCount)
        ∧ (newCode → Raised .fault (.line l) s t ∧ (blocksAgree s → FaultCaptured l .driveFault s t))
        ∧ (¬ newCode → t.sup.firstFault = s.sup.firstFault)
        ∧ (c.lastStatus.map (·.latch) ≠ some report.latch →
            Raised .lineState (.line l) s t ∧ CallFollows l s t ∧ t.sup.call.surgeCount = s.sup.call.surgeCount
            ∧ t.sup.view.get l = { s.sup.view.get l with
                state := .fault, latchIntent := some faultIntent.latch, lastLatch := some report.latch })
        ∧ (c.lastStatus.map (·.latch) = some report.latch → t.sup.call = s.sup.call ∧ t.sup.view = s.sup.view)
        ∧ t.drum = s.drum ∧ t.plan = s.plan ∧ t.handed = s.handed ∧ t.store = s.store ∧ t.det = s.det ∧ t.reg = s.reg)
    ∧ (∀ (new : LineState) (latch : LatchIntent),
      s.store.applyPending.lines.get l = false → outOfStep s l = true → viewsAgree s l = true →
      old = .adopting → f.fresh = true → c.freshSample = true → b.faultCode = 0#8 →
      ((b.latch = 1#8 ∧ new = .holding ∧ latch = .hold)
       ∨ (b.latch = 0#8 ∧ b.stow ≠ 0#8 ∧ new = .stowed ∧ latch = .rest)
       ∨ (b.latch = 0#8 ∧ b.stow = 0#8 ∧ new = .slackOut ∧ latch = .rest)) →
      ∃ t, exec (.statusComplete bytes) s = .next t ∧ s.sameTraffic t
        ∧ Entered l new none ⟨.apply, .stop, 0, latch, false⟩ none { s with bus := bus } t
        ∧ (t.lcu.get l).lastStatus = some report
        ∧ (new = .holding → (t.lcu.get l).lockPosition = 0 ∧ (t.lmu.get l).ref = (t.lmu.get l).tF)
        ∧ (b.stow ≠ 0#8 → (t.drum.get l).position = 0 ∧ (t.drum.get l).referenced = true)
        ∧ (b.stow = 0#8 → t.drum = s.drum ∧ (t.lcu.get l).renderInhibited = c.renderInhibited
            ∧ (t.lcu.get l).recoverInhibited = c.recoverInhibited)
        ∧ (∀ m, m ≠ l → t.lineItems m = s.lineItems m) ∧ t.plan = s.plan ∧ t.handed = s.handed ∧ t.store = s.store)
    ∧ (old = .adopting → b.stow = 0#8 → f.fresh = true → c.freshSample = true → b.faultCode = 0#8 → b.latch ≠ 0#8 →
      b.latch ≠ 1#8 →
      exec (.statusComplete bytes) s = .next (takeTx { s with
        bus := bus
        lcu := s.lcu.set l { c with
          lastStatus := some report, freshStatus := some report
          timer := some (c.timer.getD ⟨.latch, max 1 (s.profile l).latchLimit * 1000⟩) } }))
    ∧ (old = .adopting → b.stow = 0#8 → (f.fresh = false ∨ c.freshSample = false) →
      exec (.statusComplete bytes) s = .next (takeTx { s with
        bus := bus
        lcu := s.lcu.set l { c with
          lastStatus := some report, freshStatus := if f.fresh then some report else c.freshStatus } }))
    ∧ (takesNoTest s l b →
      (b.stow = 0#8 ∨ old = .disabled ∨ ((s.drum.get l).position = 0 ∧ (s.drum.get l).referenced = true)) →
      exec (.statusComplete bytes) s = .next (takeTx { s with
        bus := bus, lcu := s.lcu.set l { c with lastStatus := some report }
        choices := if b.stow = 0#8 then s.choices else s.choices + 1 }))
    ∧ (takesNoTest s l b → b.stow ≠ 0#8 → old ≠ .disabled →
      ((s.drum.get l).position ≠ 0 ∨ (s.drum.get l).referenced = false) → viewsAgree s l = true →
      let d := s.drum.get l
      let net := -c.lockPosition
      let within := net.natAbs ≤ (s.reg.get l).half
      ∃ t, exec (.statusComplete bytes) s = .next t ∧ s.sameTraffic t
        ∧ (t.lcu.get l).lastStatus = some report
        ∧ t.drum = s.drum.set l { d with position := 0, referenced := true, softZone := true }
        ∧ ((old = .rendering → (s.reg.get l).rendering = true → net < ((s.reg.get l).allowance : Int)) →
            (old = .recovering → -((s.reg.get l).allowance : Int) < net) →
            t.lcu.get l = { c with
                lastStatus := some report, softZoneView := c.softZoneView || !d.softZone
                renderInhibited := c.renderInhibited && !decide within
                recoverInhibited := c.recoverInhibited && !decide within }
            ∧ t.reg.get l = s.reg.get l ∧ t.bus = bus ∧ t.sup.call = s.sup.call)
        ∧ ((old = .rendering ∧ (s.reg.get l).rendering = true ∧ ((s.reg.get l).allowance : Int) ≤ net)
            ∨ (old = .recovering ∧ net ≤ -((s.reg.get l).allowance : Int)) →
            t.stateOf l = .holding ∧ CallFollows l s t)
        ∧ (∀ m, m ≠ l → t.lineItems m = s.lineItems m) ∧ t.plan = s.plan ∧ t.handed = s.handed ∧ t.store = s.store)

/-! ## The ports (chapter 9) -/

/-- An assertion of SP_SEL chooses the frame output from the slot (R167), 96 bytes: the header with the response's kind, line,
flags and reply code, or a filler's, then the payload and zero bytes after it (R181). A release after 96 whole bytes takes the
frame into an EMPTY or READY slot, OVERRUN for a response that was not carried out, or loses it to COLLISION (R168); any other
release abandons it and leaves the slot (R170). Nothing else changes. The request is read from the frame's bytes: its kind from
byte 0, its line or record from byte 1, a profile from byte 4, and its form is not good where byte 2 or 3 is not 00H (R181).
The codes of kinds and replies, the bytes of a payload's fields, and what else the form asks are free values (log entries 5,
58). That the byte count stands at 0 through a frame and keeps its value after the release is the model's (log entry 63). -/
def Obligations.FramesAreTakenOrLost : Prop :=
  ∀ (s : State) (count : Nat) (mid : Bool) (frame : List Byte) (o : FrameOut), s.resetting = none →
    let p := s.shore
    (s.pins.selected = false →
      exec .frameStart s = .next (takeTx { s with
        pins := { s.pins with selected := true }
        shore := { p with
          byteCount := 0
          frameOut := some (match p.slot with
            | .ready r => .response r | .pending _ => .notReady | .empty => .noResponse) } }))
    ∧ (s.pins.selected = true → p.frameOut = some o → count = 96 → mid = false →
      exec (.frameRelease count mid frame) s = .next (takeTx { s with
        pins := { s.pins with selected := false }
        shore := { p with
          frameOut := none, byteCount := 96
          slot := (match p.slot with | .pending g => .pending g | .ready _ => .pending (frameOf frame) | .empty => .pending (frameOf frame))
          collision := (match p.slot with | .pending _ => true | .ready _ => p.collision | .empty => p.collision)
          overrun := (match p.slot with
            | .ready r => p.overrun || decide (o ≠ .response r) | .pending _ => p.overrun | .empty => p.overrun) } }))
    ∧ (s.pins.selected = true → p.frameOut = some o → (count ≠ 96 ∨ mid = true) →
      exec (.frameRelease count mid frame) s = .next (takeTx { s with
        pins := { s.pins with selected := false }
        shore := { p with
          frameOut := none, byteCount := count, abandonedCount := min 255 (p.abandonedCount + 1), abandonedSeen := true } }))
    ∧ (∀ r : Response,
        let bytes := (FrameOut.response r).bytes
        let payload := Config.payloadBytes r.reply.payload
        bytes.length = 96
        ∧ bytes.take 4 =
            [r.kind, r.line,
             BitVec.ofNat 8 (r.collision.toNat + 2 * r.overrun.toNat + 4 * r.abandonedSeen.toNat),
             Config.replyCode r.reply.code]
        ∧ ∀ k, k < 92 → bytes.getD (4 + k) 0#8 = payload.getD k 0#8)
    ∧ FrameOut.notReady.bytes = [0#8, 0#8, 0#8, Config.notReady] ++ List.replicate 92 0#8
    ∧ FrameOut.noResponse.bytes = [0#8, 0#8, 0#8, Config.noResponse] ++ List.replicate 92 0#8
    ∧ (let f := frameOf frame
       let line := frame.getD 1 0#8
       f.kind = frame.getD 0 0#8 ∧ f.line = line
       ∧ (frame.getD 2 0#8 ≠ 0#8 ∨ frame.getD 3 0#8 ≠ 0#8 → f.formOk = false)
       ∧ match f.request with
         | .unknown k b => k = frame.getD 0 0#8 ∧ b = line
         | .unknownCommand b _ | .lineCommand b _ | .selectRepeater (some b) | .readLine b | .readProfile b | .lockProfile b
         | .commissionProfile b => b = line
         | .writeProfile b bytes => b = line ∧ bytes = (frame.drop 4).take 78
         | _ => True)

/-- The checks of R163 in their order: the first that fails gives the code of the Shore Port's response at the end of the
decode, and of the Vessel Port's reply when the waiting message is decoded; a refused request changes nothing else (R163,
R164, R165, R169, R174). The kinds that the shore may not send are the model's reading (log entry 22), and so is when the
waiting message is decoded (log entry 31); byte 1 of the response to a kind that names no line (log entry 46) and the reply kind
of a kind that has 80H set (log entry 47) are its choice. An ATTACH of the vessel whose call a CLOSE_CALL of the same
millisecond closed may have passed its port's checks before the close, and is then refused NOT_ASSIGNED (R133); what reaches the
part together, and that either comes about, is the model's (log entry 50). -/
def Obligations.FirstFailingCheckRefuses : Prop :=
  ∀ (s : State) (sender : Sender) (r : Request) (formOk : Bool) (code : ReplyCode), s.resetting = none →
    failsFirst s sender r formOk code →
    let attachOf := fun v => ∃ b, sender = .vessel v ∧ r = .lineCommand b .attach
    let together := fun v => code = .notBound ∧ attachOf v ∧ s.sup.call.phase = .idle ∧ s.sup.closedCall = some (v, s.now)
    (∀ f : ShoreFrame, sender = .shore → s.shore.slot = .pending f → f.request = r →
      f.formOk = formOk →
      ∃ t, exec .shoreDecodeEnd s = .next t ∧ Responded f ⟨code, .empty⟩ s t ∧ OnlyReply s t)
    ∧ (∀ v k x y, sender = .vessel v → s.vessel.waiting = some ⟨v, k, r, formOk⟩ → s.vessel.tx = .sending x →
      s.vessel.replyPlace = some y → ¬ together v →
      exec .transmitEnd s = .next { s with vessel := { s.vessel with
        tx := .sending (.reply y), waiting := none
        replyPlace := some ⟨s.store.workingBerth.berthCode, v, k ||| 0x80#8, ⟨code, .empty⟩⟩ } })
    ∧ (∀ v k x y, sender = .vessel v → s.vessel.waiting = some ⟨v, k, r, formOk⟩ → s.vessel.tx = .sending x →
      s.vessel.replyPlace = some y → together v →
      ∃ answer : ReplyCode, (answer = .notAssigned ∨ answer = .notBound)
        ∧ exec .transmitEnd s = .next { s with
            choices := s.choices + 1
            vessel := { s.vessel with
              tx := .sending (.reply y), waiting := none
              replyPlace := some ⟨s.store.workingBerth.berthCode, v, k ||| 0x80#8, ⟨answer, .empty⟩⟩ } })

/-- At the end of a decode the request goes to its owner, and the owner's reply into the slot with the latches (R163, R169);
at the end of a message the transmitter takes the reply in its place, and the waiting message is decoded behind it, its reply
with the kind's 80H set (R174, R175); with nothing to send the transmitter goes IDLE. A reply goes out as R182 lays it out: start
byte, length, berth and vessel code, kind, reply code, payload and check code. When the waiting message is decoded is the
model's reading (log entry 31), and so is the reply's berth code after a Berth Profile applied by the same request (log entry
42); the codes and a payload's bytes are free values (log entry 5). -/
def Obligations.DecodedRequestsGoToTheirOwners : Prop :=
  ∀ s : State, s.resetting = none →
    (∀ f : ShoreFrame, s.shore.slot = .pending f → refusal s .shore f.formOk f.request = none → f.request ≠ .softReset →
      ∃ t, exec .shoreDecodeEnd s = .next t ∧ Responded f (owner .shore f.request s).2 s t
        ∧ OnlyReply (owner .shore f.request s).1 t)
    ∧ (∀ (v : Half) (k : Byte) (r : Request) (x : TxMessage) (y : VesselReply), s.vessel.tx = .sending x →
      s.vessel.replyPlace = some y → s.vessel.waiting = some ⟨v, k, r, true⟩ → refusal s (.vessel v) true r = none →
      ∃ t, exec .transmitEnd s = .next t ∧ t.vessel.tx = .sending (.reply y) ∧ t.vessel.waiting = none
        ∧ t.vessel.replyPlace = some ⟨t.store.workingBerth.berthCode, v, k ||| 0x80#8,
            (owner (.vessel v) r { s with vessel := { s.vessel with
              tx := .sending (.reply y), replyPlace := none, waiting := none } }).2⟩)
    ∧ (∀ x : TxMessage, s.vessel.tx = .sending x → s.vessel.replyPlace = none → s.vessel.waiting = none →
      s.vessel.reportOwed = false →
      exec .transmitEnd s = .next { s with vessel := { s.vessel with tx := .idle } })
    ∧ (∀ (x : TxMessage) (y : VesselReply), s.vessel.tx = .sending x → s.vessel.replyPlace = some y →
      s.vessel.waiting = none →
      exec .transmitEnd s =
        .next { s with vessel := { s.vessel with tx := .sending (.reply y), replyPlace := none } })
    ∧ (∀ y : VesselReply,
      let bytes := (TxMessage.reply y).bytes
      let payload := (Config.payloadBytes y.reply.payload).take 54
      let n := payload.length + 6
      bytes.length = n + 4 ∧ bytes.length ≤ 64
      ∧ bytes.take 8 =
          [0xA5#8, BitVec.ofNat 8 n, (y.berthCode >>> 8).setWidth 8, y.berthCode.setWidth 8, (y.vesselCode >>> 8).setWidth 8,
           y.vesselCode.setWidth 8, y.kind, Config.replyCode y.reply.code]
      ∧ (bytes.drop 8).take payload.length = payload
      ∧ (crc16 ((bytes.drop 1).take (n + 1))).toNat
          = (bytes.getD (n + 2) 0#8).toNat * 256 + (bytes.getD (n + 3) 0#8).toNat)

/-- The read requests return the items of R180, each as its owner holds it, the Shore Port's own items to the shore alone,
and change nothing. The delta of READ_LINE is T_f minus Ref as they stand at the read, the model's reading (log entry 16). -/
def Obligations.ReadsReturnTheItems : Prop :=
  ∀ (s : State) (sender : Sender) (b : Byte) (l : Line),
    let c := s.lcu.get l
    let m := s.lmu.get l
    let d := s.drum.get l
    let k := s.sup.call
    (lineOfByte b = some l → admitted s sender (.readLine b) = true →
      ∃ t, exec (.readLine sender b) s = .next t ∧ OnlyReply s t
        ∧ Answered sender (.readLine b) ⟨.ok, .line {
            state := c.state, resume := c.resume, faultCause := c.faultCause, intent := c.intent
            tF := m.fAcc / 256, ref := m.rAcc / 256, delta := m.fAcc / 256 - m.rAcc / 256
            position := d.position, referenced := d.referenced
            netPayoutMm := ((d.position - c.lockPosition) * (s.profile l).stepUm).tdiv 1000
            speed := d.speed, workingTarget := c.workingTarget, renderSpeed := (s.reg.get l).speed
            renderInhibited := c.renderInhibited, recoverInhibited := c.recoverInhibited
            surge := (s.det.get l).surgeFlag, planMark := c.planMark
            diagnostics := if sender = .shore then some {
              tRaw := m.tRaw, f16 := m.f16, missCount := m.missCount, rateClass := m.rateClass, peak := m.peak
              lockPosition := c.lockPosition, errorCount := d.errorCount, counters := (s.det.get l).counters
              surgeCounter := (s.det.get l).surgeCounter, active := (s.det.get l).active, lastStatus := c.lastStatus
              failures := (s.bus.modules.get l).failures, lastPhase := (s.bus.modules.get l).lastPhase } else none }⟩ s t)
    ∧ (admitted s sender .readCall = true →
      ∃ t, exec (.readCall sender) s = .next t ∧ OnlyReply s t
        ∧ Answered sender .readCall ⟨.ok, .callRecord {
            phase := k.phase, vesselCode := k.vesselCode, number := k.number, assigned := k.assigned
            time := k.timeMs / 1000, surgeCount := k.surgeCount, madeFastTime := k.madeFastTime
            rampPermit := s.sup.rampPermit, departPermit := s.sup.departPermit
            diagnostics := if sender = .shore then some {
              trip := s.sup.trip.level, stop := s.sup.stop.level, rampClear := s.sup.rampClear.level
              adoptionComplete := s.sup.adoptionComplete, selected := s.repeater.selected
              pendingCount := s.repeater.pendingCount, output := s.repeater.output
              abandonedCount := s.shore.abandonedCount, framingErrors := s.vessel.framingErrors
              mode := s.vessel.mode, interval := s.vessel.interval, reportMask := s.vessel.mask
              shoreAcked := s.shore.acked, vesselAcked := s.vessel.acked } else none }⟩ s t)
    ∧ (admitted s .shore .readPlan = true →
      ∃ t, exec (.readPlan .shore) s = .next t ∧ OnlyReply s t ∧ Answered .shore .readPlan ⟨.ok, .plan s.plan⟩ s t)
    ∧ (admitted s .shore .readCaptures = true →
      ∃ t, exec (.readCaptures .shore) s = .next t ∧ OnlyReply s t
        ∧ Answered .shore .readCaptures ⟨.ok, .captures {
            firstOverload := s.sup.firstOverload, firstFault := s.sup.firstFault
            overloadCount := s.sup.overloadCount, faultCount := s.sup.faultCount
            peaks := s.lmu.imap fun _ x => x.peak }⟩ s t)

/-- READ_EVENTS returns the shore's pending set, with the reset cause while RESET_SEEN is pending, and removes every other pair
(R179); SET_MASK sets the mask (R179); ACK_RESET sets the port's flag and removes RESET_SEEN from that master's set (R165);
ATTN_S follows each (R171). CLEAR_CAPTURES clears the captures, the counts and the peaks (R145). Nothing else changes. -/
def Obligations.EventsAndCapturesAreCleared : Prop :=
  ∀ (s : State) (mask : KindSet) (code : Half),
    let e := s.shore.events
    (admitted s .shore .readEvents = true →
      ∃ t, exec (.readEvents .shore) s = .next t
        ∧ Answered .shore .readEvents ⟨.ok, .events e (if e.berth.resetSeen then some s.resetCause else none)⟩ s t
        ∧ OnlyReply { s with shore := { s.shore with
            events := ⟨Lines.const KindSet.none, { KindSet.none with resetSeen := e.berth.resetSeen }⟩
            attnLow := e.berth.resetSeen } } t)
    ∧ (admitted s .shore (.setMask mask) = true →
      ∃ t, exec (.setMask .shore mask) s = .next t ∧ Answered .shore (.setMask mask) ⟨.ok, .empty⟩ s t
        ∧ t.shore.mask = mask
        ∧ OnlyReply { s with shore := { s.shore with
            mask := mask, attnLow := e.berth.resetSeen || e.meets mask } } t)
    ∧ (admitted s .shore .ackReset = true →
      let rest := { e with berth := { e.berth with resetSeen := false } }
      ∃ t, exec (.ackReset .shore) s = .next t ∧ Answered .shore .ackReset ⟨.ok, .empty⟩ s t
        ∧ t.shore.acked = true
        ∧ OnlyReply { s with shore := { s.shore with
            acked := true, events := rest, attnLow := rest.meets s.shore.mask } } t)
    ∧ (admitted s (.vessel code) .ackReset = true →
      ∃ t, exec (.ackReset (.vessel code)) s = .next t ∧ Answered (.vessel code) .ackReset ⟨.ok, .empty⟩ s t
        ∧ t.vessel.acked = true
        ∧ t.vessel.events =
            { s.vessel.events with berth := { s.vessel.events.berth with resetSeen := false } }
        ∧ t = { s with vessel := t.vessel })
    ∧ (admitted s .shore .clearCaptures = true →
      ∃ t, exec (.clearCaptures .shore) s = .next t ∧ Answered .shore .clearCaptures ⟨.ok, .empty⟩ s t
        ∧ OnlyReply { s with
            sup := { s.sup with firstOverload := none, firstFault := none, overloadCount := 0, faultCount := 0 }
            lmu := s.lmu.imap fun _ m => { m with peak := 0 } } t)

/-- SET_REPORTING sets the mode, the mask and the clamped interval, and the report timer by the mode (R176). In EVENT mode a
report falls owed when the pending set comes to hold a pair that the mask selects, having held none: here a REF_RESEED (R16,
R176, R178). The report timer's expiry makes a Status Report owed, which an IDLE transmitter composes at once with the items of
R177, clearing the overrun flag and every pair but RESET_SEEN. -/
def Obligations.ReportsFallOwedAndAreComposed : Prop :=
  ∀ (s : State) (code : Half) (mode : ReportMode) (interval : Half) (mask : KindSet) (n : Nat),
    let field : ReportModeField := match mode with | .stream => .stream | .event => .event
    let used := max 200 (min 5000 interval.toNat)
    let v := s.vessel
    (admitted s (.vessel code) (.setReporting field interval mask) = true →
      ∃ t, exec (.setReporting code field interval mask) s = .next t
        ∧ Answered (.vessel code) (.setReporting field interval mask) ⟨.ok, .interval used⟩ s t
        ∧ t = { s with vessel := { v with
            tx := t.vessel.tx, replyPlace := t.vessel.replyPlace
            mode := mode, interval := used, mask := mask
            reportTimer := match mode with | .stream => some used | .event => none
            reportOwed := match mode with | .stream => v.reportOwed | .event => v.reportOwed || v.events.meets mask } })
    ∧ (s.resetting = none → v.reportTimer = some n → v.tx ≠ .idle →
      exec .reportTimerExpiry s = .next { s with vessel := { v with reportOwed := true, reportTimer := some v.interval } })
    ∧ (s.resetting = none → v.reportTimer = some n → v.tx = .idle → v.replyPlace = none →
      let bound := if s.sup.call.phase = .idle then 0#16 else s.sup.call.vesselCode.getD 0#16
      exec .reportTimerExpiry s = .next { s with vessel := { v with
        reportOwed := false, reportTimer := some v.interval, overrunFlag := false
        events := ⟨Lines.const KindSet.none, { KindSet.none with resetSeen := v.events.berth.resetSeen }⟩
        tx := .sending (.report s.store.workingBerth.berthCode bound {
          phase := s.sup.call.phase, boundCode := bound, rampPermit := s.sup.rampPermit
          departPermit := s.sup.departPermit, planState := s.plan.state, planStep := s.plan.current.getD 0
          overrunFlag := v.overrunFlag, acked := v.acked, resetCause := s.resetCause
          kinds := Line.all.foldl (fun x l => x.union (v.events.lines.get l)) v.events.berth
          lines := s.lcu.imap fun l c =>
            if c.state = .disabled then ⟨.disabled, 0, 0, false, false, false, false⟩
            else ⟨c.state, (s.lmu.get l).fAcc / 256, (s.drum.get l).speed, (s.det.get l).surgeFlag, c.renderInhibited,
              c.recoverInhibited, c.faultCause.isSome⟩ }) } })
    ∧ (∀ (l : Line) (k : Nat), s.resetting = none → v.tx ≠ .idle → (s.lmu.get l).holdTimer = some k →
      ∃ t, exec (.holdTimerExpiry l) s = .next t ∧ t.vessel = { v with
        events := v.events.add .refReseed (.line l)
        reportOwed := v.reportOwed || (v.mode == .event && !v.events.meets v.mask && v.mask.refReseed) })

/-- The assembler: A5H starts a message and any other byte is ignored; each byte is added and restarts the gap timer; a bad
stop bit, a length outside 5 to 60, an expired gap or a wrong check code discards the message with a count; another berth's
message goes silently; a good one goes to the waiting place, or sets the overrun flag where that is occupied (R173, R174,
R182). The request that the payload's bytes stand for is a free value (log entry 5); the statement fixes only what the spec's
frame gives. -/
def Obligations.BytesMakeMessages : Prop :=
  ∀ (s : State) (b : Byte) (good : Bool) (bytes : List Byte), s.resetting = none →
    let v := s.vessel
    let n := (bytes.getD 1 0#8).toNat
    let whole := 2 ≤ bytes.length ∧ bytes.length = n + 4
    let discarded := { s with vessel := { v with
      assembler := .hunting, gapTimer := none, framingErrors := min 255 (v.framingErrors + 1) } }
    let checkGood := (crc16 ((bytes.drop 1).take (n + 1))).toNat
      = (bytes.getD (n + 2) 0#8).toNat * 256 + (bytes.getD (n + 3) 0#8).toNat
    let ours := s.store.workingBerth.berthCode.toNat = (bytes.getD 2 0#8).toNat * 256 + (bytes.getD 3 0#8).toNat
    (v.assembler = .hunting →
      exec (.vesselByteReceived b good) s = .next (takeTx (if good = true ∧ b = 0xA5#8 then
        { s with vessel := { v with assembler := .assembling [b], gapTimer := some 5 } } else s)))
    ∧ (v.assembler = .assembling bytes → ¬ whole → bytes ≠ [] →
      let more := bytes ++ [b]
      exec (.vesselByteReceived b good) s = .next (takeTx (
        if good = false ∨ (bytes.length = 1 ∧ (b.toNat < 5 ∨ 60 < b.toNat)) then discarded
        else { s with vessel := { v with
          assembler := .assembling more
          gapTimer := if 2 ≤ more.length ∧ more.length = (more.getD 1 0#8).toNat + 4 then none else some 5 } })))
    ∧ (v.gapTimer.isSome = true → exec .gapTimerExpiry s = .next (takeTx discarded))
    ∧ (v.assembler = .assembling bytes → whole → 5 ≤ n →
      (¬ checkGood → exec .vesselMessageReceived s = .next (takeTx discarded))
      ∧ (checkGood → ¬ ours → exec .vesselMessageReceived s =
          .next (takeTx { s with vessel := { v with assembler := .hunting, gapTimer := none } }))
      ∧ (checkGood → ours → v.waiting = none → v.replyPlace ≠ none → v.tx ≠ .idle →
          ∃ m, exec .vesselMessageReceived s = .next { s with vessel := { v with
              assembler := .hunting, gapTimer := none, waiting := some m } }
            ∧ m.code.toNat = (bytes.getD 4 0#8).toNat * 256 + (bytes.getD 5 0#8).toNat
            ∧ m.kind = bytes.getD 6 0#8
            ∧ (128 ≤ m.kind.toNat → m.request = .unknown m.kind 0#8))
      ∧ (checkGood → ours → v.waiting ≠ none → v.replyPlace ≠ none → v.tx ≠ .idle →
          exec .vesselMessageReceived s = .next { s with vessel := { v with
            assembler := .hunting, gapTimer := none, overrunFlag := true } }))

/-! ## Line Profiles (chapter 10) -/

/-- The profile requests: READ_PROFILE, WRITE_PROFILE with its checks in order and the field tests of R187, LOCK_PROFILE,
COMMISSION_PROFILE and VERIFY_STORE, each with its reply, its effect on the store and nothing else (R184, R187, R188, R190,
R191). BAD_LINE before STORE_BUSY, READ_PROFILE's STORE_BUSY, the length of the written bytes and COMMISSION_PROFILE's
BAD_PROFILE without an offset are the model's readings (log entries 24, 25, 36, 48). -/
def Obligations.ProfileRequestsActOnTheStore : Prop :=
  ∀ (s : State) (b : Byte) (r : RecordName) (bytes : List Byte),
    let st := s.store
    let record := st.stored.get r
    let busy := st.programming ≠ .none
    let locked := st.sessionLock.get r = true ∨ st.commissioned.get r = true
    let inUse := match r with
      | .line l => s.stateOf l ≠ .stowed ∧ s.stateOf l ≠ .disabled ∧ s.stateOf l ≠ .fault
      | .berth => s.sup.call.phase ≠ .idle
    let data := (bytes ++ List.replicate 78 0#8).take 78
    let sum := crc16 data
    (9 ≤ b.toNat → ∀ (q : Request) (i : Instr),
      ((q, i) = (.readProfile b, .readProfile .shore b) ∨ (q, i) = (.writeProfile b bytes, .writeProfile .shore b bytes)
        ∨ (q, i) = (.lockProfile b, .lockProfile .shore b)
        ∨ (q, i) = (.commissionProfile b, .commissionProfile .shore b)) →
      admitted s .shore q = true →
      ∃ t, exec i s = .next t ∧ Answered .shore q ⟨.badLine, .empty⟩ s t ∧ OnlyReply s t)
    ∧ (recordOfByte b = some r → admitted s .shore (.readProfile b) = true →
      ∃ t, exec (.readProfile .shore b) s = .next t ∧ OnlyReply s t
        ∧ ((∃ w, st.programming = .write r w) → Answered .shore (.readProfile b) ⟨.storeBusy, .empty⟩ s t)
        ∧ ((∀ w, st.programming ≠ .write r w) → Answered .shore (.readProfile b) ⟨.ok, .profile {
            bytes := record.bytes, checkGood := record.checkGood, sessionLock := st.sessionLock.get r
            commissioned := st.commissioned.get r, applyPending := st.applyPending.get r
            berthDefaults := match r with | .line _ => none | .berth => some st.berthDefaults }⟩ s t))
    ∧ (recordOfByte b = some r → admitted s .shore (.writeProfile b bytes) = true →
      (∀ reply : Reply,
        ((busy ∧ reply = ⟨.storeBusy, .empty⟩)
         ∨ (¬ busy ∧ locked ∧ reply = ⟨.locked, .empty⟩)
         ∨ (¬ busy ∧ ¬ locked ∧ inUse ∧ reply = ⟨.profileInUse, .empty⟩)
         ∨ (¬ busy ∧ ¬ locked ∧ ¬ inUse ∧ ∃ at_, fieldFails s r data at_
              ∧ (∀ k, k < at_ → ¬ fieldFails s r data k) ∧ reply = ⟨.badProfile, .offset at_⟩)) →
        ∃ t, exec (.writeProfile .shore b bytes) s = .next t
          ∧ Answered .shore (.writeProfile b bytes) reply s t ∧ OnlyReply s t)
      ∧ (¬ busy → ¬ locked → ¬ inUse → (∀ k, ¬ fieldFails s r data k) →
        ∃ t, exec (.writeProfile .shore b bytes) s = .next t
          ∧ Answered .shore (.writeProfile b bytes) ⟨.ok, .empty⟩ s t
          ∧ OnlyReply { s with store := { st with
              programming := .write r (data ++ [BitVec.ofNat 8 (sum.toNat / 256), BitVec.ofNat 8 sum.toNat]) } } t))
    ∧ (recordOfByte b = some r → admitted s .shore (.lockProfile b) = true →
      ∃ t, exec (.lockProfile .shore b) s = .next t
        ∧ (busy → Answered .shore (.lockProfile b) ⟨.storeBusy, .empty⟩ s t ∧ OnlyReply s t)
        ∧ (¬ busy → Answered .shore (.lockProfile b) ⟨.ok, .empty⟩ s t
            ∧ OnlyReply { s with store := { st with sessionLock := st.sessionLock.set r true } } t))
    ∧ (recordOfByte b = some r → admitted s .shore (.commissionProfile b) = true →
      let sealable := record.checkGood = true ∧ st.applyPending.get r = false
      ∃ t, exec (.commissionProfile .shore b) s = .next t
        ∧ (busy → Answered .shore (.commissionProfile b) ⟨.storeBusy, .empty⟩ s t ∧ OnlyReply s t)
        ∧ (¬ busy → ¬ sealable → Answered .shore (.commissionProfile b) ⟨.badProfile, .empty⟩ s t ∧ OnlyReply s t)
        ∧ (¬ busy → sealable → st.commissioned.get r = true →
            Answered .shore (.commissionProfile b) ⟨.ok, .empty⟩ s t ∧ OnlyReply s t)
        ∧ (¬ busy → sealable → st.commissioned.get r = false →
            Answered .shore (.commissionProfile b) ⟨.ok, .empty⟩ s t
            ∧ OnlyReply { s with store := { st with programming := .lock r } } t))
    ∧ (admitted s .shore .verifyStore = true →
      ∃ t, exec (.verifyStore .shore) s = .next t ∧ OnlyReply s t
        ∧ (busy → Answered .shore .verifyStore ⟨.storeBusy, .empty⟩ s t)
        ∧ (¬ busy → ∃ fails : Records Bool, Answered .shore .verifyStore ⟨.ok, .verified fails⟩ s t
            ∧ ∀ q, fails.get q = !(st.stored.get q).checkGood))

/-- The end of a record's programming: a mismatch leaves the record failing its check and raises STORE; a match outside the
states that allow it leaves the apply pending; else the record is applied: a Berth Profile becomes the working copy, a line's
working copy is used by every block, and the enabled option takes a DISABLED line to ADOPTING and a STOWED or FAULT line to
DISABLED, which then has the working target 0 and no limits and leaves the call; a line that stays DISABLED takes the new ones
(R45, R49, R75, R95, R134, R189). The repeater computes its unit steps and takes its band anew where the profile is the berth's
or the selected line's (R55). The end of a lock's programming sets the lock and raises STORE (R190). The bytes of a mismatch,
the mark beside a record and the order of an apply and an entry into DISABLED are the model's readings (log entries 41, 28,
40), and so is the STORE of a mismatch, an event like any other STORE (log entry 64). -/
def Obligations.ProgrammingEnds : Prop :=
  ∀ (s : State) (r : RecordName) (l : Line) (bytes back : List Byte), s.resetting = none →
    let st := s.store
    let tag : Tag := match r with | .line m => .line m | .berth => .berth
    let stored := { st with programming := .none, stored := st.stored.set r ⟨bytes, false⟩ }
    let p := lineProfileOf bytes
    let c := s.lcu.get l
    (st.programming = .lock r →
      ∃ t, exec .lockProgrammingEnd s = .next t ∧ s.sameTraffic t
        ∧ OnlyEvent .store tag { s with store := { st with
            programming := .none, commissioned := st.commissioned.set r true } } t)
    ∧ (st.programming = .write r bytes → back ≠ bytes →
      ∃ t, exec (.writeProgrammingEnd back) s = .next t ∧ s.sameTraffic t
        ∧ (t.store.stored.get r).checkGood = false
        ∧ OnlyEvent .store tag { s with store := { st with
            programming := .none, stored := st.stored.set r (t.store.stored.get r) } } t)
    ∧ (st.programming = .write r bytes →
      (match r with
        | .line m => s.stateOf m ≠ .stowed ∧ s.stateOf m ≠ .disabled ∧ s.stateOf m ≠ .fault
        | .berth => s.sup.call.phase ≠ .idle) →
      exec (.writeProgrammingEnd bytes) s = .next (takeTx { s with store := { stored with
        applyPending := st.applyPending.set r true } }))
    ∧ (st.programming = .write .berth bytes → r = .berth → s.sup.call.phase = .idle →
      ∃ t, exec (.writeProgrammingEnd bytes) s = .next t ∧ s.sameTraffic t
        ∧ OnlyEvent .store .berth { s with
            store := { stored with
              applyPending := { st.applyPending with berth := false }
              workingBerth := berthProfileOf bytes, berthDefaults := false }
            repeater := t.repeater } t
        ∧ UnitRetaken s.repeater t)
    ∧ (st.programming = .write (.line l) bytes → r = .line l →
      (s.stateOf l = .stowed ∨ s.stateOf l = .fault ∨ s.stateOf l = .disabled) → outOfStep s l = true → p.stepUm ≠ 0 →
      ∃ t, exec (.writeProgrammingEnd bytes) s = .next t ∧ s.sameTraffic t
        ∧ Applied l p (s.stateOf l) false { s with store := stored } t
        ∧ (p.enabled = true → s.stateOf l ≠ .disabled →
            t.lcu.get l = { c with
              workingTarget := p.targetDefault
              softZoneView := if (t.drum.get l).softZone = (s.drum.get l).softZone then c.softZoneView
                else (t.drum.get l).softZone }
            ∧ (t.drum.get l).softZone =
                (!(t.drum.get l).referenced || decide ((s.drum.get l).position ≤ (p.softZone * 10000 / p.stepUm : Nat)))
            ∧ t.bus.queue = s.bus.queue ∧ t.sup = s.sup
            ∧ (t.drum.get l).referenced =
                ((s.drum.get l).referenced && decide ((s.profile l).stepUm = p.stepUm)))
        ∧ (p.enabled = true → s.stateOf l = .disabled → (s.lmu.get l).stateView = .disabled →
            (t.lcu.get l).intent = none ∧ t.lmu.get l = startedIn p .active (t.lmu.get l) ∧ (t.lmu.get l).missCount = 0
            ∧ (t.lmu.get l).rateClass = some .active ∧ t.bus.queue = s.bus.queue ∧ Raised .lineState (.line l) s t
            ∧ CallFollows l s t)
        ∧ (p.enabled = false → s.stateOf l ≠ .disabled → s.sup.adoptionComplete = true → CallWithout l s t)
        ∧ (∀ m, m ≠ l → t.lineItems m = s.lineItems m) ∧ t.plan = s.plan ∧ t.handed = s.handed)

/-! ## Invariants that every step keeps -/

/-- The invariants hold right after a POWER_ON reset with nothing programmed: State.reset, whose blank store (log entry 6) and low
input pins (log entry 19) are the model's choice. -/
def Obligations.ResetMeetsTheInvariants : Prop :=
  permitsHold State.reset = true ∧ queueForm State.reset.bus.queue = true ∧ attnFollows State.reset = true
  ∧ (∀ l, intentFits State.reset l = true) ∧ (∀ l, viewsAgree State.reset l = true)
  ∧ blocksAgree State.reset ∧ commissionedSafe State.reset = true

/-- Every step keeps RAMP_PERMIT and DEPART_PERMIT as their conditions say, deasserted during a reset (R136, R137, R193). -/
def Obligations.StepKeepsThePermits : Prop :=
  ∀ s t : State, permitsHold s = true → step s = .next t → permitsHold t = true

/-- Every step keeps the drive queue's form: at most one COMMAND and one STATUS for a line, URGENT ahead of NORMAL (R153). -/
def Obligations.StepKeepsTheQueueForm : Prop :=
  ∀ s t : State, queueForm s.bus.queue = true → step s = .next t → queueForm t.bus.queue = true

/-- Every step keeps ATTN_S low exactly while RESET_SEEN or a pair of a selected kind is pending (R171). -/
def Obligations.StepKeepsAttention : Prop :=
  ∀ s t : State, attnFollows s = true → step s = .next t → attnFollows t = true

/-- Every step keeps each line's drive intent the one its state gives, and every block's view of the line's state the LCU's
(R60, R61). With them, every step keeps what the blocks have been told of one another's flags, counters and assignments as the
owners hold them, the rate class that the table gives (R7, R36, R38, R40, R50, R98, R130), and no change of the call or of the
adoption outstanding (R132, R197). -/
def Obligations.StepKeepsIntentsAndViews : Prop :=
  ∀ s t : State, (∀ l, intentFits s l = true ∧ viewsAgree s l = true) → step s = .next t →
    (∀ l, intentFits t l = true ∧ viewsAgree t l = true) ∧ (blocksAgree s → blocksAgree t)

/-- No step changes a commissioned record's content or clears its lock, and none begins to program it (R188, R190). -/
def Obligations.StepKeepsCommissionedRecords : Prop :=
  ∀ s t : State, commissionedSafe s = true → step s = .next t →
    commissionedSafe t = true
    ∧ ∀ r, s.store.commissioned.get r = true →
        t.store.commissioned.get r = true ∧ t.store.stored.get r = s.store.stored.get r
end

