-- ==== Sys2Proof/Laws/State.lean ====
section
/-! SUPPORT. Each update of State, field by field, and the laws of one item per line. -/

namespace Sys2Proof

namespace Lines

variable {α β : Type}

@[simp] theorem get_set_same (x : Lines α) (l : Line) (a : α) : (x.set l a).get l = a := by cases l <;> rfl

@[simp] theorem get_set_ne (x : Lines α) {l m : Line} (a : α) (h : m ≠ l) : (x.set l a).get m = x.get m := by
  cases l <;> cases m <;> first | rfl | exact absurd rfl h

theorem get_set (x : Lines α) (l m : Line) (a : α) : (x.set l a).get m = if m = l then a else x.get m := by
  cases l <;> cases m <;> rfl

@[simp] theorem get_ofFn (f : Line → α) (l : Line) : (ofFn f).get l = f l := by cases l <;> rfl

@[simp] theorem get_const (a : α) (l : Line) : (const a : Lines α).get l = a := by cases l <;> rfl

@[simp] theorem get_imap (f : Line → α → β) (x : Lines α) (l : Line) : (x.imap f).get l = f l (x.get l) := by cases l <;> rfl

theorem eq_of_get {x y : Lines α} (h : ∀ l, x.get l = y.get l) : x = y := by
  cases x; cases y
  have h0 := h .l0; have h1 := h .l1; have h2 := h .l2; have h3 := h .l3
  have h4 := h .l4; have h5 := h .l5; have h6 := h .l6; have h7 := h .l7
  simp only [get] at h0 h1 h2 h3 h4 h5 h6 h7
  simp only [h0, h1, h2, h3, h4, h5, h6, h7]

@[simp] theorem set_get (x : Lines α) (l : Line) : x.set l (x.get l) = x := by cases l <;> rfl

@[simp] theorem set_set (x : Lines α) (l : Line) (a b : α) : (x.set l a).set l b = x.set l b := by cases l <;> rfl

theorem allB_iff (x : Lines α) (p : Line → α → Bool) : x.allB p = true ↔ ∀ l, p l (x.get l) = true := by
  simp only [allB, Line.all, List.all_eq_true]
  exact ⟨fun h l => h l (by cases l <;> simp), fun h l _ => h l⟩

theorem anyB_iff (x : Lines α) (p : Line → α → Bool) : x.anyB p = true ↔ ∃ l, p l (x.get l) = true := by
  simp only [anyB, Line.all, List.any_eq_true]
  exact ⟨fun ⟨l, _, h⟩ => ⟨l, h⟩, fun ⟨l, h⟩ => ⟨l, by cases l <;> simp, h⟩⟩

end Lines

@[simp] theorem Line.mem_all (l : Line) : l ∈ Line.all := by cases l <;> simp [Line.all]

theorem mem_linesOf (x : LineSet) (l : Line) : l ∈ Machine.linesOf x ↔ x.get l = true := by
  simp [Machine.linesOf]

namespace Machine

variable (s : State)

@[simp] theorem State.setLmu_lmu (l : Line) (c : LmuChannel) : (s.setLmu l c).lmu = s.lmu.set l c := rfl
@[simp] theorem State.setLmu_det (l : Line) (c : LmuChannel) : (s.setLmu l c).det = s.det := rfl
@[simp] theorem State.setLmu_drum (l : Line) (c : LmuChannel) : (s.setLmu l c).drum = s.drum := rfl
@[simp] theorem State.setLmu_repeater (l : Line) (c : LmuChannel) : (s.setLmu l c).repeater = s.repeater := rfl
@[simp] theorem State.setLmu_lcu (l : Line) (c : LmuChannel) : (s.setLmu l c).lcu = s.lcu := rfl
@[simp] theorem State.setLmu_reg (l : Line) (c : LmuChannel) : (s.setLmu l c).reg = s.reg := rfl
@[simp] theorem State.setLmu_plan (l : Line) (c : LmuChannel) : (s.setLmu l c).plan = s.plan := rfl
@[simp] theorem State.setLmu_handed (l : Line) (c : LmuChannel) : (s.setLmu l c).handed = s.handed := rfl
@[simp] theorem State.setLmu_sup (l : Line) (c : LmuChannel) : (s.setLmu l c).sup = s.sup := rfl
@[simp] theorem State.setLmu_bus (l : Line) (c : LmuChannel) : (s.setLmu l c).bus = s.bus := rfl
@[simp] theorem State.setLmu_shore (l : Line) (c : LmuChannel) : (s.setLmu l c).shore = s.shore := rfl
@[simp] theorem State.setLmu_vessel (l : Line) (c : LmuChannel) : (s.setLmu l c).vessel = s.vessel := rfl
@[simp] theorem State.setLmu_store (l : Line) (c : LmuChannel) : (s.setLmu l c).store = s.store := rfl
@[simp] theorem State.setLmu_pins (l : Line) (c : LmuChannel) : (s.setLmu l c).pins = s.pins := rfl
@[simp] theorem State.setLmu_resetting (l : Line) (c : LmuChannel) : (s.setLmu l c).resetting = s.resetting := rfl
@[simp] theorem State.setLmu_resetCause (l : Line) (c : LmuChannel) : (s.setLmu l c).resetCause = s.resetCause := rfl
@[simp] theorem State.setLmu_now (l : Line) (c : LmuChannel) : (s.setLmu l c).now = s.now := rfl
@[simp] theorem State.setLmu_choices (l : Line) (c : LmuChannel) : (s.setLmu l c).choices = s.choices := rfl
@[simp] theorem State.setLmu_pending (l : Line) (c : LmuChannel) : (s.setLmu l c).pending = s.pending := rfl

@[simp] theorem State.setDet_lmu (l : Line) (c : DetectorChannel) : (s.setDet l c).lmu = s.lmu := rfl
@[simp] theorem State.setDet_det (l : Line) (c : DetectorChannel) : (s.setDet l c).det = s.det.set l c := rfl
@[simp] theorem State.setDet_drum (l : Line) (c : DetectorChannel) : (s.setDet l c).drum = s.drum := rfl
@[simp] theorem State.setDet_repeater (l : Line) (c : DetectorChannel) : (s.setDet l c).repeater = s.repeater := rfl
@[simp] theorem State.setDet_lcu (l : Line) (c : DetectorChannel) : (s.setDet l c).lcu = s.lcu := rfl
@[simp] theorem State.setDet_reg (l : Line) (c : DetectorChannel) : (s.setDet l c).reg = s.reg := rfl
@[simp] theorem State.setDet_plan (l : Line) (c : DetectorChannel) : (s.setDet l c).plan = s.plan := rfl
@[simp] theorem State.setDet_handed (l : Line) (c : DetectorChannel) : (s.setDet l c).handed = s.handed := rfl
@[simp] theorem State.setDet_sup (l : Line) (c : DetectorChannel) : (s.setDet l c).sup = s.sup := rfl
@[simp] theorem State.setDet_bus (l : Line) (c : DetectorChannel) : (s.setDet l c).bus = s.bus := rfl
@[simp] theorem State.setDet_shore (l : Line) (c : DetectorChannel) : (s.setDet l c).shore = s.shore := rfl
@[simp] theorem State.setDet_vessel (l : Line) (c : DetectorChannel) : (s.setDet l c).vessel = s.vessel := rfl
@[simp] theorem State.setDet_store (l : Line) (c : DetectorChannel) : (s.setDet l c).store = s.store := rfl
@[simp] theorem State.setDet_pins (l : Line) (c : DetectorChannel) : (s.setDet l c).pins = s.pins := rfl
@[simp] theorem State.setDet_resetting (l : Line) (c : DetectorChannel) : (s.setDet l c).resetting = s.resetting := rfl
@[simp] theorem State.setDet_resetCause (l : Line) (c : DetectorChannel) : (s.setDet l c).resetCause = s.resetCause := rfl
@[simp] theorem State.setDet_now (l : Line) (c : DetectorChannel) : (s.setDet l c).now = s.now := rfl
@[simp] theorem State.setDet_choices (l : Line) (c : DetectorChannel) : (s.setDet l c).choices = s.choices := rfl
@[simp] theorem State.setDet_pending (l : Line) (c : DetectorChannel) : (s.setDet l c).pending = s.pending := rfl

@[simp] theorem State.setDrum_lmu (l : Line) (c : DrumChannel) : (s.setDrum l c).lmu = s.lmu := rfl
@[simp] theorem State.setDrum_det (l : Line) (c : DrumChannel) : (s.setDrum l c).det = s.det := rfl
@[simp] theorem State.setDrum_drum (l : Line) (c : DrumChannel) : (s.setDrum l c).drum = s.drum.set l c := rfl
@[simp] theorem State.setDrum_repeater (l : Line) (c : DrumChannel) : (s.setDrum l c).repeater = s.repeater := rfl
@[simp] theorem State.setDrum_lcu (l : Line) (c : DrumChannel) : (s.setDrum l c).lcu = s.lcu := rfl
@[simp] theorem State.setDrum_reg (l : Line) (c : DrumChannel) : (s.setDrum l c).reg = s.reg := rfl
@[simp] theorem State.setDrum_plan (l : Line) (c : DrumChannel) : (s.setDrum l c).plan = s.plan := rfl
@[simp] theorem State.setDrum_handed (l : Line) (c : DrumChannel) : (s.setDrum l c).handed = s.handed := rfl
@[simp] theorem State.setDrum_sup (l : Line) (c : DrumChannel) : (s.setDrum l c).sup = s.sup := rfl
@[simp] theorem State.setDrum_bus (l : Line) (c : DrumChannel) : (s.setDrum l c).bus = s.bus := rfl
@[simp] theorem State.setDrum_shore (l : Line) (c : DrumChannel) : (s.setDrum l c).shore = s.shore := rfl
@[simp] theorem State.setDrum_vessel (l : Line) (c : DrumChannel) : (s.setDrum l c).vessel = s.vessel := rfl
@[simp] theorem State.setDrum_store (l : Line) (c : DrumChannel) : (s.setDrum l c).store = s.store := rfl
@[simp] theorem State.setDrum_pins (l : Line) (c : DrumChannel) : (s.setDrum l c).pins = s.pins := rfl
@[simp] theorem State.setDrum_resetting (l : Line) (c : DrumChannel) : (s.setDrum l c).resetting = s.resetting := rfl
@[simp] theorem State.setDrum_resetCause (l : Line) (c : DrumChannel) : (s.setDrum l c).resetCause = s.resetCause := rfl
@[simp] theorem State.setDrum_now (l : Line) (c : DrumChannel) : (s.setDrum l c).now = s.now := rfl
@[simp] theorem State.setDrum_choices (l : Line) (c : DrumChannel) : (s.setDrum l c).choices = s.choices := rfl
@[simp] theorem State.setDrum_pending (l : Line) (c : DrumChannel) : (s.setDrum l c).pending = s.pending := rfl

@[simp] theorem State.setLcu_lmu (l : Line) (c : LcuChannel) : (s.setLcu l c).lmu = s.lmu := rfl
@[simp] theorem State.setLcu_det (l : Line) (c : LcuChannel) : (s.setLcu l c).det = s.det := rfl
@[simp] theorem State.setLcu_drum (l : Line) (c : LcuChannel) : (s.setLcu l c).drum = s.drum := rfl
@[simp] theorem State.setLcu_repeater (l : Line) (c : LcuChannel) : (s.setLcu l c).repeater = s.repeater := rfl
@[simp] theorem State.setLcu_lcu (l : Line) (c : LcuChannel) : (s.setLcu l c).lcu = s.lcu.set l c := rfl
@[simp] theorem State.setLcu_reg (l : Line) (c : LcuChannel) : (s.setLcu l c).reg = s.reg := rfl
@[simp] theorem State.setLcu_plan (l : Line) (c : LcuChannel) : (s.setLcu l c).plan = s.plan := rfl
@[simp] theorem State.setLcu_handed (l : Line) (c : LcuChannel) : (s.setLcu l c).handed = s.handed := rfl
@[simp] theorem State.setLcu_sup (l : Line) (c : LcuChannel) : (s.setLcu l c).sup = s.sup := rfl
@[simp] theorem State.setLcu_bus (l : Line) (c : LcuChannel) : (s.setLcu l c).bus = s.bus := rfl
@[simp] theorem State.setLcu_shore (l : Line) (c : LcuChannel) : (s.setLcu l c).shore = s.shore := rfl
@[simp] theorem State.setLcu_vessel (l : Line) (c : LcuChannel) : (s.setLcu l c).vessel = s.vessel := rfl
@[simp] theorem State.setLcu_store (l : Line) (c : LcuChannel) : (s.setLcu l c).store = s.store := rfl
@[simp] theorem State.setLcu_pins (l : Line) (c : LcuChannel) : (s.setLcu l c).pins = s.pins := rfl
@[simp] theorem State.setLcu_resetting (l : Line) (c : LcuChannel) : (s.setLcu l c).resetting = s.resetting := rfl
@[simp] theorem State.setLcu_resetCause (l : Line) (c : LcuChannel) : (s.setLcu l c).resetCause = s.resetCause := rfl
@[simp] theorem State.setLcu_now (l : Line) (c : LcuChannel) : (s.setLcu l c).now = s.now := rfl
@[simp] theorem State.setLcu_choices (l : Line) (c : LcuChannel) : (s.setLcu l c).choices = s.choices := rfl
@[simp] theorem State.setLcu_pending (l : Line) (c : LcuChannel) : (s.setLcu l c).pending = s.pending := rfl

@[simp] theorem State.setReg_lmu (l : Line) (c : RegulatorChannel) : (s.setReg l c).lmu = s.lmu := rfl
@[simp] theorem State.setReg_det (l : Line) (c : RegulatorChannel) : (s.setReg l c).det = s.det := rfl
@[simp] theorem State.setReg_drum (l : Line) (c : RegulatorChannel) : (s.setReg l c).drum = s.drum := rfl
@[simp] theorem State.setReg_repeater (l : Line) (c : RegulatorChannel) : (s.setReg l c).repeater = s.repeater := rfl
@[simp] theorem State.setReg_lcu (l : Line) (c : RegulatorChannel) : (s.setReg l c).lcu = s.lcu := rfl
@[simp] theorem State.setReg_reg (l : Line) (c : RegulatorChannel) : (s.setReg l c).reg = s.reg.set l c := rfl
@[simp] theorem State.setReg_plan (l : Line) (c : RegulatorChannel) : (s.setReg l c).plan = s.plan := rfl
@[simp] theorem State.setReg_handed (l : Line) (c : RegulatorChannel) : (s.setReg l c).handed = s.handed := rfl
@[simp] theorem State.setReg_sup (l : Line) (c : RegulatorChannel) : (s.setReg l c).sup = s.sup := rfl
@[simp] theorem State.setReg_bus (l : Line) (c : RegulatorChannel) : (s.setReg l c).bus = s.bus := rfl
@[simp] theorem State.setReg_shore (l : Line) (c : RegulatorChannel) : (s.setReg l c).shore = s.shore := rfl
@[simp] theorem State.setReg_vessel (l : Line) (c : RegulatorChannel) : (s.setReg l c).vessel = s.vessel := rfl
@[simp] theorem State.setReg_store (l : Line) (c : RegulatorChannel) : (s.setReg l c).store = s.store := rfl
@[simp] theorem State.setReg_pins (l : Line) (c : RegulatorChannel) : (s.setReg l c).pins = s.pins := rfl
@[simp] theorem State.setReg_resetting (l : Line) (c : RegulatorChannel) : (s.setReg l c).resetting = s.resetting := rfl
@[simp] theorem State.setReg_resetCause (l : Line) (c : RegulatorChannel) : (s.setReg l c).resetCause = s.resetCause := rfl
@[simp] theorem State.setReg_now (l : Line) (c : RegulatorChannel) : (s.setReg l c).now = s.now := rfl
@[simp] theorem State.setReg_choices (l : Line) (c : RegulatorChannel) : (s.setReg l c).choices = s.choices := rfl
@[simp] theorem State.setReg_pending (l : Line) (c : RegulatorChannel) : (s.setReg l c).pending = s.pending := rfl

@[simp] theorem State.setRepeater_lmu (x : Repeater) : (s.setRepeater x).lmu = s.lmu := rfl
@[simp] theorem State.setRepeater_det (x : Repeater) : (s.setRepeater x).det = s.det := rfl
@[simp] theorem State.setRepeater_drum (x : Repeater) : (s.setRepeater x).drum = s.drum := rfl
@[simp] theorem State.setRepeater_repeater (x : Repeater) : (s.setRepeater x).repeater = x := rfl
@[simp] theorem State.setRepeater_lcu (x : Repeater) : (s.setRepeater x).lcu = s.lcu := rfl
@[simp] theorem State.setRepeater_reg (x : Repeater) : (s.setRepeater x).reg = s.reg := rfl
@[simp] theorem State.setRepeater_plan (x : Repeater) : (s.setRepeater x).plan = s.plan := rfl
@[simp] theorem State.setRepeater_handed (x : Repeater) : (s.setRepeater x).handed = s.handed := rfl
@[simp] theorem State.setRepeater_sup (x : Repeater) : (s.setRepeater x).sup = s.sup := rfl
@[simp] theorem State.setRepeater_bus (x : Repeater) : (s.setRepeater x).bus = s.bus := rfl
@[simp] theorem State.setRepeater_shore (x : Repeater) : (s.setRepeater x).shore = s.shore := rfl
@[simp] theorem State.setRepeater_vessel (x : Repeater) : (s.setRepeater x).vessel = s.vessel := rfl
@[simp] theorem State.setRepeater_store (x : Repeater) : (s.setRepeater x).store = s.store := rfl
@[simp] theorem State.setRepeater_pins (x : Repeater) : (s.setRepeater x).pins = s.pins := rfl
@[simp] theorem State.setRepeater_resetting (x : Repeater) : (s.setRepeater x).resetting = s.resetting := rfl
@[simp] theorem State.setRepeater_resetCause (x : Repeater) : (s.setRepeater x).resetCause = s.resetCause := rfl
@[simp] theorem State.setRepeater_now (x : Repeater) : (s.setRepeater x).now = s.now := rfl
@[simp] theorem State.setRepeater_choices (x : Repeater) : (s.setRepeater x).choices = s.choices := rfl
@[simp] theorem State.setRepeater_pending (x : Repeater) : (s.setRepeater x).pending = s.pending := rfl

@[simp] theorem State.setPlan_lmu (x : PlanRecord) : (s.setPlan x).lmu = s.lmu := rfl
@[simp] theorem State.setPlan_det (x : PlanRecord) : (s.setPlan x).det = s.det := rfl
@[simp] theorem State.setPlan_drum (x : PlanRecord) : (s.setPlan x).drum = s.drum := rfl
@[simp] theorem State.setPlan_repeater (x : PlanRecord) : (s.setPlan x).repeater = s.repeater := rfl
@[simp] theorem State.setPlan_lcu (x : PlanRecord) : (s.setPlan x).lcu = s.lcu := rfl
@[simp] theorem State.setPlan_reg (x : PlanRecord) : (s.setPlan x).reg = s.reg := rfl
@[simp] theorem State.setPlan_plan (x : PlanRecord) : (s.setPlan x).plan = x := rfl
@[simp] theorem State.setPlan_handed (x : PlanRecord) : (s.setPlan x).handed = s.handed := rfl
@[simp] theorem State.setPlan_sup (x : PlanRecord) : (s.setPlan x).sup = s.sup := rfl
@[simp] theorem State.setPlan_bus (x : PlanRecord) : (s.setPlan x).bus = s.bus := rfl
@[simp] theorem State.setPlan_shore (x : PlanRecord) : (s.setPlan x).shore = s.shore := rfl
@[simp] theorem State.setPlan_vessel (x : PlanRecord) : (s.setPlan x).vessel = s.vessel := rfl
@[simp] theorem State.setPlan_store (x : PlanRecord) : (s.setPlan x).store = s.store := rfl
@[simp] theorem State.setPlan_pins (x : PlanRecord) : (s.setPlan x).pins = s.pins := rfl
@[simp] theorem State.setPlan_resetting (x : PlanRecord) : (s.setPlan x).resetting = s.resetting := rfl
@[simp] theorem State.setPlan_resetCause (x : PlanRecord) : (s.setPlan x).resetCause = s.resetCause := rfl
@[simp] theorem State.setPlan_now (x : PlanRecord) : (s.setPlan x).now = s.now := rfl
@[simp] theorem State.setPlan_choices (x : PlanRecord) : (s.setPlan x).choices = s.choices := rfl
@[simp] theorem State.setPlan_pending (x : PlanRecord) : (s.setPlan x).pending = s.pending := rfl

@[simp] theorem State.setSup_lmu (x : Supervisor) : (s.setSup x).lmu = s.lmu := rfl
@[simp] theorem State.setSup_det (x : Supervisor) : (s.setSup x).det = s.det := rfl
@[simp] theorem State.setSup_drum (x : Supervisor) : (s.setSup x).drum = s.drum := rfl
@[simp] theorem State.setSup_repeater (x : Supervisor) : (s.setSup x).repeater = s.repeater := rfl
@[simp] theorem State.setSup_lcu (x : Supervisor) : (s.setSup x).lcu = s.lcu := rfl
@[simp] theorem State.setSup_reg (x : Supervisor) : (s.setSup x).reg = s.reg := rfl
@[simp] theorem State.setSup_plan (x : Supervisor) : (s.setSup x).plan = s.plan := rfl
@[simp] theorem State.setSup_handed (x : Supervisor) : (s.setSup x).handed = s.handed := rfl
@[simp] theorem State.setSup_sup (x : Supervisor) : (s.setSup x).sup = x := rfl
@[simp] theorem State.setSup_bus (x : Supervisor) : (s.setSup x).bus = s.bus := rfl
@[simp] theorem State.setSup_shore (x : Supervisor) : (s.setSup x).shore = s.shore := rfl
@[simp] theorem State.setSup_vessel (x : Supervisor) : (s.setSup x).vessel = s.vessel := rfl
@[simp] theorem State.setSup_store (x : Supervisor) : (s.setSup x).store = s.store := rfl
@[simp] theorem State.setSup_pins (x : Supervisor) : (s.setSup x).pins = s.pins := rfl
@[simp] theorem State.setSup_resetting (x : Supervisor) : (s.setSup x).resetting = s.resetting := rfl
@[simp] theorem State.setSup_resetCause (x : Supervisor) : (s.setSup x).resetCause = s.resetCause := rfl
@[simp] theorem State.setSup_now (x : Supervisor) : (s.setSup x).now = s.now := rfl
@[simp] theorem State.setSup_choices (x : Supervisor) : (s.setSup x).choices = s.choices := rfl
@[simp] theorem State.setSup_pending (x : Supervisor) : (s.setSup x).pending = s.pending := rfl

@[simp] theorem State.setBus_lmu (x : DriveBus) : (s.setBus x).lmu = s.lmu := rfl
@[simp] theorem State.setBus_det (x : DriveBus) : (s.setBus x).det = s.det := rfl
@[simp] theorem State.setBus_drum (x : DriveBus) : (s.setBus x).drum = s.drum := rfl
@[simp] theorem State.setBus_repeater (x : DriveBus) : (s.setBus x).repeater = s.repeater := rfl
@[simp] theorem State.setBus_lcu (x : DriveBus) : (s.setBus x).lcu = s.lcu := rfl
@[simp] theorem State.setBus_reg (x : DriveBus) : (s.setBus x).reg = s.reg := rfl
@[simp] theorem State.setBus_plan (x : DriveBus) : (s.setBus x).plan = s.plan := rfl
@[simp] theorem State.setBus_handed (x : DriveBus) : (s.setBus x).handed = s.handed := rfl
@[simp] theorem State.setBus_sup (x : DriveBus) : (s.setBus x).sup = s.sup := rfl
@[simp] theorem State.setBus_bus (x : DriveBus) : (s.setBus x).bus = x := rfl
@[simp] theorem State.setBus_shore (x : DriveBus) : (s.setBus x).shore = s.shore := rfl
@[simp] theorem State.setBus_vessel (x : DriveBus) : (s.setBus x).vessel = s.vessel := rfl
@[simp] theorem State.setBus_store (x : DriveBus) : (s.setBus x).store = s.store := rfl
@[simp] theorem State.setBus_pins (x : DriveBus) : (s.setBus x).pins = s.pins := rfl
@[simp] theorem State.setBus_resetting (x : DriveBus) : (s.setBus x).resetting = s.resetting := rfl
@[simp] theorem State.setBus_resetCause (x : DriveBus) : (s.setBus x).resetCause = s.resetCause := rfl
@[simp] theorem State.setBus_now (x : DriveBus) : (s.setBus x).now = s.now := rfl
@[simp] theorem State.setBus_choices (x : DriveBus) : (s.setBus x).choices = s.choices := rfl
@[simp] theorem State.setBus_pending (x : DriveBus) : (s.setBus x).pending = s.pending := rfl

@[simp] theorem State.setShore_lmu (x : ShorePort) : (s.setShore x).lmu = s.lmu := rfl
@[simp] theorem State.setShore_det (x : ShorePort) : (s.setShore x).det = s.det := rfl
@[simp] theorem State.setShore_drum (x : ShorePort) : (s.setShore x).drum = s.drum := rfl
@[simp] theorem State.setShore_repeater (x : ShorePort) : (s.setShore x).repeater = s.repeater := rfl
@[simp] theorem State.setShore_lcu (x : ShorePort) : (s.setShore x).lcu = s.lcu := rfl
@[simp] theorem State.setShore_reg (x : ShorePort) : (s.setShore x).reg = s.reg := rfl
@[simp] theorem State.setShore_plan (x : ShorePort) : (s.setShore x).plan = s.plan := rfl
@[simp] theorem State.setShore_handed (x : ShorePort) : (s.setShore x).handed = s.handed := rfl
@[simp] theorem State.setShore_sup (x : ShorePort) : (s.setShore x).sup = s.sup := rfl
@[simp] theorem State.setShore_bus (x : ShorePort) : (s.setShore x).bus = s.bus := rfl
@[simp] theorem State.setShore_shore (x : ShorePort) : (s.setShore x).shore = x := rfl
@[simp] theorem State.setShore_vessel (x : ShorePort) : (s.setShore x).vessel = s.vessel := rfl
@[simp] theorem State.setShore_store (x : ShorePort) : (s.setShore x).store = s.store := rfl
@[simp] theorem State.setShore_pins (x : ShorePort) : (s.setShore x).pins = s.pins := rfl
@[simp] theorem State.setShore_resetting (x : ShorePort) : (s.setShore x).resetting = s.resetting := rfl
@[simp] theorem State.setShore_resetCause (x : ShorePort) : (s.setShore x).resetCause = s.resetCause := rfl
@[simp] theorem State.setShore_now (x : ShorePort) : (s.setShore x).now = s.now := rfl
@[simp] theorem State.setShore_choices (x : ShorePort) : (s.setShore x).choices = s.choices := rfl
@[simp] theorem State.setShore_pending (x : ShorePort) : (s.setShore x).pending = s.pending := rfl

@[simp] theorem State.setVessel_lmu (x : VesselPort) : (s.setVessel x).lmu = s.lmu := rfl
@[simp] theorem State.setVessel_det (x : VesselPort) : (s.setVessel x).det = s.det := rfl
@[simp] theorem State.setVessel_drum (x : VesselPort) : (s.setVessel x).drum = s.drum := rfl
@[simp] theorem State.setVessel_repeater (x : VesselPort) : (s.setVessel x).repeater = s.repeater := rfl
@[simp] theorem State.setVessel_lcu (x : VesselPort) : (s.setVessel x).lcu = s.lcu := rfl
@[simp] theorem State.setVessel_reg (x : VesselPort) : (s.setVessel x).reg = s.reg := rfl
@[simp] theorem State.setVessel_plan (x : VesselPort) : (s.setVessel x).plan = s.plan := rfl
@[simp] theorem State.setVessel_handed (x : VesselPort) : (s.setVessel x).handed = s.handed := rfl
@[simp] theorem State.setVessel_sup (x : VesselPort) : (s.setVessel x).sup = s.sup := rfl
@[simp] theorem State.setVessel_bus (x : VesselPort) : (s.setVessel x).bus = s.bus := rfl
@[simp] theorem State.setVessel_shore (x : VesselPort) : (s.setVessel x).shore = s.shore := rfl
@[simp] theorem State.setVessel_vessel (x : VesselPort) : (s.setVessel x).vessel = x := rfl
@[simp] theorem State.setVessel_store (x : VesselPort) : (s.setVessel x).store = s.store := rfl
@[simp] theorem State.setVessel_pins (x : VesselPort) : (s.setVessel x).pins = s.pins := rfl
@[simp] theorem State.setVessel_resetting (x : VesselPort) : (s.setVessel x).resetting = s.resetting := rfl
@[simp] theorem State.setVessel_resetCause (x : VesselPort) : (s.setVessel x).resetCause = s.resetCause := rfl
@[simp] theorem State.setVessel_now (x : VesselPort) : (s.setVessel x).now = s.now := rfl
@[simp] theorem State.setVessel_choices (x : VesselPort) : (s.setVessel x).choices = s.choices := rfl
@[simp] theorem State.setVessel_pending (x : VesselPort) : (s.setVessel x).pending = s.pending := rfl

@[simp] theorem State.setStore_lmu (x : ProfileStore) : (s.setStore x).lmu = s.lmu := rfl
@[simp] theorem State.setStore_det (x : ProfileStore) : (s.setStore x).det = s.det := rfl
@[simp] theorem State.setStore_drum (x : ProfileStore) : (s.setStore x).drum = s.drum := rfl
@[simp] theorem State.setStore_repeater (x : ProfileStore) : (s.setStore x).repeater = s.repeater := rfl
@[simp] theorem State.setStore_lcu (x : ProfileStore) : (s.setStore x).lcu = s.lcu := rfl
@[simp] theorem State.setStore_reg (x : ProfileStore) : (s.setStore x).reg = s.reg := rfl
@[simp] theorem State.setStore_plan (x : ProfileStore) : (s.setStore x).plan = s.plan := rfl
@[simp] theorem State.setStore_handed (x : ProfileStore) : (s.setStore x).handed = s.handed := rfl
@[simp] theorem State.setStore_sup (x : ProfileStore) : (s.setStore x).sup = s.sup := rfl
@[simp] theorem State.setStore_bus (x : ProfileStore) : (s.setStore x).bus = s.bus := rfl
@[simp] theorem State.setStore_shore (x : ProfileStore) : (s.setStore x).shore = s.shore := rfl
@[simp] theorem State.setStore_vessel (x : ProfileStore) : (s.setStore x).vessel = s.vessel := rfl
@[simp] theorem State.setStore_store (x : ProfileStore) : (s.setStore x).store = x := rfl
@[simp] theorem State.setStore_pins (x : ProfileStore) : (s.setStore x).pins = s.pins := rfl
@[simp] theorem State.setStore_resetting (x : ProfileStore) : (s.setStore x).resetting = s.resetting := rfl
@[simp] theorem State.setStore_resetCause (x : ProfileStore) : (s.setStore x).resetCause = s.resetCause := rfl
@[simp] theorem State.setStore_now (x : ProfileStore) : (s.setStore x).now = s.now := rfl
@[simp] theorem State.setStore_choices (x : ProfileStore) : (s.setStore x).choices = s.choices := rfl
@[simp] theorem State.setStore_pending (x : ProfileStore) : (s.setStore x).pending = s.pending := rfl

@[simp] theorem State.setPins_lmu (x : Pins) : (s.setPins x).lmu = s.lmu := rfl
@[simp] theorem State.setPins_det (x : Pins) : (s.setPins x).det = s.det := rfl
@[simp] theorem State.setPins_drum (x : Pins) : (s.setPins x).drum = s.drum := rfl
@[simp] theorem State.setPins_repeater (x : Pins) : (s.setPins x).repeater = s.repeater := rfl
@[simp] theorem State.setPins_lcu (x : Pins) : (s.setPins x).lcu = s.lcu := rfl
@[simp] theorem State.setPins_reg (x : Pins) : (s.setPins x).reg = s.reg := rfl
@[simp] theorem State.setPins_plan (x : Pins) : (s.setPins x).plan = s.plan := rfl
@[simp] theorem State.setPins_handed (x : Pins) : (s.setPins x).handed = s.handed := rfl
@[simp] theorem State.setPins_sup (x : Pins) : (s.setPins x).sup = s.sup := rfl
@[simp] theorem State.setPins_bus (x : Pins) : (s.setPins x).bus = s.bus := rfl
@[simp] theorem State.setPins_shore (x : Pins) : (s.setPins x).shore = s.shore := rfl
@[simp] theorem State.setPins_vessel (x : Pins) : (s.setPins x).vessel = s.vessel := rfl
@[simp] theorem State.setPins_store (x : Pins) : (s.setPins x).store = s.store := rfl
@[simp] theorem State.setPins_pins (x : Pins) : (s.setPins x).pins = x := rfl
@[simp] theorem State.setPins_resetting (x : Pins) : (s.setPins x).resetting = s.resetting := rfl
@[simp] theorem State.setPins_resetCause (x : Pins) : (s.setPins x).resetCause = s.resetCause := rfl
@[simp] theorem State.setPins_now (x : Pins) : (s.setPins x).now = s.now := rfl
@[simp] theorem State.setPins_choices (x : Pins) : (s.setPins x).choices = s.choices := rfl
@[simp] theorem State.setPins_pending (x : Pins) : (s.setPins x).pending = s.pending := rfl

@[simp] theorem State.drawn_lmu : s.drawn.lmu = s.lmu := rfl
@[simp] theorem State.drawn_det : s.drawn.det = s.det := rfl
@[simp] theorem State.drawn_drum : s.drawn.drum = s.drum := rfl
@[simp] theorem State.drawn_repeater : s.drawn.repeater = s.repeater := rfl
@[simp] theorem State.drawn_lcu : s.drawn.lcu = s.lcu := rfl
@[simp] theorem State.drawn_reg : s.drawn.reg = s.reg := rfl
@[simp] theorem State.drawn_plan : s.drawn.plan = s.plan := rfl
@[simp] theorem State.drawn_handed : s.drawn.handed = s.handed := rfl
@[simp] theorem State.drawn_sup : s.drawn.sup = s.sup := rfl
@[simp] theorem State.drawn_bus : s.drawn.bus = s.bus := rfl
@[simp] theorem State.drawn_shore : s.drawn.shore = s.shore := rfl
@[simp] theorem State.drawn_vessel : s.drawn.vessel = s.vessel := rfl
@[simp] theorem State.drawn_store : s.drawn.store = s.store := rfl
@[simp] theorem State.drawn_pins : s.drawn.pins = s.pins := rfl
@[simp] theorem State.drawn_resetting : s.drawn.resetting = s.resetting := rfl
@[simp] theorem State.drawn_resetCause : s.drawn.resetCause = s.resetCause := rfl
@[simp] theorem State.drawn_now : s.drawn.now = s.now := rfl
@[simp] theorem State.drawn_choices : s.drawn.choices = s.choices + 1 := rfl
@[simp] theorem State.drawn_pending : s.drawn.pending = s.pending := rfl

/-! The line table read through the updates that do not touch it. -/

@[simp] theorem State.setLmu_stateOf (l : Line) (c : LmuChannel) (m : Line) : (s.setLmu l c).stateOf m = s.stateOf m := rfl
@[simp] theorem State.setLmu_profile (l : Line) (c : LmuChannel) (m : Line) : (s.setLmu l c).profile m = s.profile m := rfl
@[simp] theorem State.setDet_stateOf (l : Line) (c : DetectorChannel) (m : Line) : (s.setDet l c).stateOf m = s.stateOf m := rfl
@[simp] theorem State.setDet_profile (l : Line) (c : DetectorChannel) (m : Line) : (s.setDet l c).profile m = s.profile m := rfl
@[simp] theorem State.setDrum_stateOf (l : Line) (c : DrumChannel) (m : Line) : (s.setDrum l c).stateOf m = s.stateOf m := rfl
@[simp] theorem State.setDrum_profile (l : Line) (c : DrumChannel) (m : Line) : (s.setDrum l c).profile m = s.profile m := rfl
@[simp] theorem State.setLcu_profile (l : Line) (c : LcuChannel) (m : Line) : (s.setLcu l c).profile m = s.profile m := rfl
@[simp] theorem State.setReg_stateOf (l : Line) (c : RegulatorChannel) (m : Line) : (s.setReg l c).stateOf m = s.stateOf m := rfl
@[simp] theorem State.setReg_profile (l : Line) (c : RegulatorChannel) (m : Line) : (s.setReg l c).profile m = s.profile m := rfl
@[simp] theorem State.setRepeater_stateOf (x : Repeater) (m : Line) : (s.setRepeater x).stateOf m = s.stateOf m := rfl
@[simp] theorem State.setRepeater_profile (x : Repeater) (m : Line) : (s.setRepeater x).profile m = s.profile m := rfl
@[simp] theorem State.setPlan_stateOf (x : PlanRecord) (m : Line) : (s.setPlan x).stateOf m = s.stateOf m := rfl
@[simp] theorem State.setPlan_profile (x : PlanRecord) (m : Line) : (s.setPlan x).profile m = s.profile m := rfl
@[simp] theorem State.setSup_stateOf (x : Supervisor) (m : Line) : (s.setSup x).stateOf m = s.stateOf m := rfl
@[simp] theorem State.setSup_profile (x : Supervisor) (m : Line) : (s.setSup x).profile m = s.profile m := rfl
@[simp] theorem State.setBus_stateOf (x : DriveBus) (m : Line) : (s.setBus x).stateOf m = s.stateOf m := rfl
@[simp] theorem State.setBus_profile (x : DriveBus) (m : Line) : (s.setBus x).profile m = s.profile m := rfl
@[simp] theorem State.setShore_stateOf (x : ShorePort) (m : Line) : (s.setShore x).stateOf m = s.stateOf m := rfl
@[simp] theorem State.setShore_profile (x : ShorePort) (m : Line) : (s.setShore x).profile m = s.profile m := rfl
@[simp] theorem State.setVessel_stateOf (x : VesselPort) (m : Line) : (s.setVessel x).stateOf m = s.stateOf m := rfl
@[simp] theorem State.setVessel_profile (x : VesselPort) (m : Line) : (s.setVessel x).profile m = s.profile m := rfl
@[simp] theorem State.setStore_stateOf (x : ProfileStore) (m : Line) : (s.setStore x).stateOf m = s.stateOf m := rfl
@[simp] theorem State.setPins_stateOf (x : Pins) (m : Line) : (s.setPins x).stateOf m = s.stateOf m := rfl
@[simp] theorem State.setPins_profile (x : Pins) (m : Line) : (s.setPins x).profile m = s.profile m := rfl
@[simp] theorem State.drawn_stateOf (m : Line) : s.drawn.stateOf m = s.stateOf m := rfl
@[simp] theorem State.drawn_profile (m : Line) : s.drawn.profile m = s.profile m := rfl

@[simp] theorem State.setLcu_stateOf_same (l : Line) (c : LcuChannel) : (s.setLcu l c).stateOf l = c.state := by
  simp [State.stateOf]

@[simp] theorem State.setLcu_stateOf_ne {l m : Line} (c : LcuChannel) (h : m ≠ l) : (s.setLcu l c).stateOf m = s.stateOf m := by
  simp [State.stateOf, h]

end Machine

end Sys2Proof
end

