-- ==== Sys2Proof/Laws/Around.lean ====
section
/-! SUPPORT. What no change of a line, a plan or the call touches, operation by operation: `State.outside` and the ports'
requests and replies. -/

namespace Sys2Proof.Machine

/-- Requests and replies in the ports. -/
structure Traffic where
  slot          : Slot
  collision     : Bool
  overrun       : Bool
  abandonedSeen : Bool
  waiting       : Option VesselMessage
  replyPlace    : Option VesselReply
  tx            : Transmitter
  overrunFlag   : Bool

/-- A channel's readings: its load-pin frequency, its raw tension and its filter accumulator, which only samples move. -/
def LmuChannel.readings (c : LmuChannel) : Nat × Nat × Int := (c.f16, c.tRaw, c.fAcc)

/-- What stands outside the changes of lines, plans and calls. -/
structure Around where
  outside  : Outside
  traffic  : Traffic
  readings : Lines (Nat × Nat × Int)

def State.traffic (s : State) : Traffic where
  slot := s.shore.slot
  collision := s.shore.collision
  overrun := s.shore.overrun
  abandonedSeen := s.shore.abandonedSeen
  waiting := s.vessel.waiting
  replyPlace := s.vessel.replyPlace
  tx := s.vessel.tx
  overrunFlag := s.vessel.overrunFlag

def State.around (s : State) : Around := ⟨s.outside, s.traffic, s.lmu.imap fun _ c => c.readings⟩

variable {s : State}

theorem Lines.imap_set_readings (x : Lines LmuChannel) (l : Line) (c : LmuChannel) (h : c.readings = (x.get l).readings) :
    (x.set l c).imap (fun _ c => c.readings) = x.imap fun _ c => c.readings := by
  apply Lines.eq_of_get
  intro m
  simp only [Lines.get_imap, Lines.get_set]
  split
  · subst_vars; exact h
  · rfl

@[simp] theorem State.setLmu_around (l : Line) (c : LmuChannel) (h : c.readings = (s.lmu.get l).readings) :
    (s.setLmu l c).around = s.around := by
  simp only [State.around, State.setLmu_lmu, Lines.imap_set_readings _ _ _ h]
  rfl

@[simp] theorem LmuChannel.gateStarted_readings (p : LineProfile) (c : LmuChannel) : (c.gateStarted p).readings = c.readings := by
  unfold LmuChannel.gateStarted; split <;> rfl
@[simp] theorem LmuChannel.reclassed_readings (c : LmuChannel) : c.reclassed.readings = c.readings := rfl
@[simp] theorem LmuChannel.reseeded_readings (c : LmuChannel) : c.reseeded.readings = c.readings := rfl
@[simp] theorem LmuChannel.noticed_readings (p : LineProfile) (n : LineState) (c : LmuChannel) :
    (c.noticed p n).readings = c.readings := by
  unfold LmuChannel.noticed; dsimp only; split <;> rfl
@[simp] theorem LmuChannel.applied_readings (p : LineProfile) (b : Bool) (c : LmuChannel) :
    (c.applied p b).readings = c.readings := rfl
@[simp] theorem LmuChannel.peaked_readings (m : Sample) (c : LmuChannel) : (c.peaked m).readings = c.readings := by
  unfold LmuChannel.peaked; split <;> rfl
@[simp] theorem LmuChannel.captured_readings (p : LineProfile) (z : ZeroCapture) (c : LmuChannel) :
    (c.captured p z).1.readings = c.readings := by
  unfold LmuChannel.captured; split
  · rfl
  · dsimp only; split <;> rfl
@[simp] theorem State.setDet_around (l : Line) (c : DetectorChannel) : (s.setDet l c).around = s.around := rfl
@[simp] theorem State.setDrum_around (l : Line) (c : DrumChannel) : (s.setDrum l c).around = s.around := rfl
@[simp] theorem State.setLcu_around (l : Line) (c : LcuChannel) : (s.setLcu l c).around = s.around := rfl
@[simp] theorem State.setReg_around (l : Line) (c : RegulatorChannel) : (s.setReg l c).around = s.around := rfl
@[simp] theorem State.setRepeater_around (x : Repeater) : (s.setRepeater x).around = s.around := rfl
@[simp] theorem State.setPlan_around (x : PlanRecord) : (s.setPlan x).around = s.around := rfl
@[simp] theorem State.drawn_around : s.drawn.around = s.around := rfl

theorem State.setSup_around (u : Supervisor) (h : u.trip = s.sup.trip ∧ u.stop = s.sup.stop ∧ u.rampClear = s.sup.rampClear) :
    (s.setSup u).around = s.around := by
  obtain ⟨h₁, h₂, h₃⟩ := h
  simp [State.around, State.outside, State.traffic, h₁, h₂, h₃]

theorem State.setBus_around (b : DriveBus) (h : b.activity = s.bus.activity ∧ b.stuckTimer = s.bus.stuckTimer) :
    (s.setBus b).around = s.around := by
  simp [State.around, State.outside, State.traffic, h.1, h.2]

theorem State.setStore_around (x : ProfileStore) (h : x.stored = s.store.stored ∧ x.commissioned = s.store.commissioned
    ∧ x.sessionLock = s.store.sessionLock ∧ x.programming = s.store.programming) :
    (s.setStore x).around = s.around := by
  simp [State.around, State.outside, State.traffic, h.1, h.2.1, h.2.2.1, h.2.2.2]

@[simp] theorem raise_around (k : EventKind) (t : Tag) : (raise k t s).around = s.around := by
  unfold raise VesselPort.withEvent
  split <;> rfl

theorem outside_of_around {s t : State} (h : t.around = s.around) : t.outside = s.outside := congrArg Around.outside h
theorem traffic_of_around {s t : State} (h : t.around = s.around) : t.traffic = s.traffic := congrArg Around.traffic h

@[simp] theorem queueCommand_around (l : Line) (i : Intent) (u : Bool) : (queueCommand l i u s).around = s.around := rfl
@[simp] theorem queueStatus_around (l : Line) : (queueStatus l s).around = s.around := rfl

@[simp] theorem refreshIntent_around (l : Line) (e : Bool) : (refreshIntent l e s).around = s.around := by
  unfold refreshIntent
  dsimp only
  split
  · rfl
  · split <;> (split <;> rfl)

theorem foldl_keeps {α β : Type} (p : State → β) (f : State → α → State) (h : ∀ u x, p (f u x) = p u) (items : List α) :
    ∀ u, p (items.foldl f u) = p u := by
  induction items with
  | nil => intro u; rfl
  | cons x xs ih => intro u; simp [ih, h]

theorem inFreeOrder_keeps {α β : Type} (p : State → β) (f : State → α → State) (h : ∀ u x, p (f u x) = p u)
    (hd : ∀ u : State, p u.drawn = p u) (items : List α) : p (inFreeOrder f items s) = p s := by
  unfold inFreeOrder
  rw [foldl_keeps p f h, hd]

/-! ## Supervisor -/

@[simp] theorem evalPermits_around : (evalPermits s).around = s.around := by
  unfold evalPermits; dsimp only; split <;> rfl

@[simp] theorem tellAssignment_around : (tellAssignment s).around = s.around := by
  simp only [State.around, tellAssignment]
  congr 1
@[simp] theorem setPhase_around (p : CallPhase) : (setPhase p s).around = s.around := by simp [setPhase]; rfl
@[simp] theorem advanceArriving_around : (advanceArriving s).around = s.around := by
  unfold advanceArriving; split <;> simp; rfl
@[simp] theorem advanceLettingGo_around : (advanceLettingGo s).around = s.around := by
  unfold advanceLettingGo; split <;> simp
@[simp] theorem advancePhase_around : (advancePhase s).around = s.around := by simp [advancePhase]
@[simp] theorem beginLetGo_around : (beginLetGo s).around = s.around := by unfold beginLetGo; split <;> simp
@[simp] theorem openAdopted_around : (openAdopted s).around = s.around := by
  unfold openAdopted; dsimp only; split <;> simp; rfl
@[simp] theorem setAdoption_around (b : Bool) : (setAdoption b s).around = s.around := rfl
@[simp] theorem settleAdoption_around : (settleAdoption s).around = s.around := by
  unfold settleAdoption; split <;> simp
@[simp] theorem setView_around (l : Line) (v : LineView) : (setView l v s).around = s.around := rfl
@[simp] theorem dropAssigned_around (l : Line) : (dropAssigned l s).around = s.around := by
  unfold dropAssigned; split <;> simp; rfl
@[simp] theorem supNotice_around (l : Line) : (supNotice l s).around = s.around := by
  unfold supNotice; dsimp only; simp only [evalPermits_around, settleAdoption_around, advancePhase_around]
  split <;> split <;> simp
@[simp] theorem supSurgeStart_around (l : Line) : (supSurgeStart l s).around = s.around := by
  unfold supSurgeStart; dsimp only; split <;> simp; rfl
@[simp] theorem supSurgeEnd_around (l : Line) : (supSurgeEnd l s).around = s.around := by simp [supSurgeEnd]
@[simp] theorem supFault_around (l : Line) (c : FaultCause) : (supFault l c s).around = s.around := rfl
@[simp] theorem supOverload_around (l : Line) (x : Int) : (supOverload l x s).around = s.around := rfl
@[simp] theorem setRenderInhibit_around (l : Line) (v : Bool) : (setRenderInhibit l v s).around = s.around := by
  unfold setRenderInhibit; dsimp only; split <;> simp
@[simp] theorem setRecoverInhibit_around (l : Line) (v : Bool) : (setRecoverInhibit l v s).around = s.around := by
  unfold setRecoverInhibit; dsimp only; split <;> simp
@[simp] theorem clearInhibits_around (l : Line) : (clearInhibits l s).around = s.around := by simp [clearInhibits]

/-! ## Measurement, detection, drum -/

@[simp] theorem gateStart_around (l : Line) : (gateStart l s).around = s.around := by simp [gateStart]
@[simp] theorem tellCounters_around (l : Line) (v : Bool) : (tellCounters l v s).around = s.around :=
  State.setLmu_around _ _ rfl
@[simp] theorem tellSurge_around (l : Line) (v : Bool) : (tellSurge l v s).around = s.around :=
  State.setLmu_around _ _ rfl
@[simp] theorem reseed_around (l : Line) : (reseed l s).around = s.around :=
  State.setLmu_around _ _ rfl
@[simp] theorem lmuNotice_around (l : Line) : (lmuNotice l s).around = s.around := by
  unfold lmuNotice; dsimp only; split <;> simp
@[simp] theorem ownDelivery_around (l : Line) (m : Sample) : (ownDelivery l m s).around = s.around := by
  have hp : ∀ x, LmuChannel.readings { (s.lmu.get l).peaked m with zeroCapture := x } = (s.lmu.get l).readings :=
    fun x => LmuChannel.peaked_readings m (s.lmu.get l)
  unfold ownDelivery
  dsimp only
  split
  · simp
  · split
    · split
      · split <;> simp
      · simp
    · simp [hp]
@[simp] theorem startCapture_around (l : Line) : (startCapture l s).around = s.around :=
  State.setLmu_around _ _ rfl
@[simp] theorem clearPeaks_around : (clearPeaks s).around = s.around := by
  simp only [State.around, clearPeaks]
  congr 1
@[simp] theorem signalCounters_around (l : Line) : (signalCounters l s).around = s.around := by
  unfold signalCounters; dsimp only; split <;> simp
@[simp] theorem surgeEnded_around (l : Line) : (surgeEnded l s).around = s.around := by simp [surgeEnded]
@[simp] theorem surgeStarted_around (l : Line) : (surgeStarted l s).around = s.around := by simp [surgeStarted]
@[simp] theorem detNotice_around (l : Line) : (detNotice l s).around = s.around := by
  unfold detNotice; dsimp only; split <;> simp
@[simp] theorem retakeBand_around : (retakeBand s).around = s.around := rfl
@[simp] theorem recomputeUnit_around : (recomputeUnit s).around = s.around := rfl
@[simp] theorem repeaterStep_around (l : Line) : (repeaterStep l s).around = s.around := by
  unfold repeaterStep; split <;> simp
@[simp] theorem repeaterMoved_around (l : Line) : (repeaterMoved l s).around = s.around := by
  unfold repeaterMoved; split <;> simp
@[simp] theorem softZoneTest_around (l : Line) : (softZoneTest l s).around = s.around := by
  unfold softZoneTest; dsimp only
  split
  · rfl
  · split <;> simp
@[simp] theorem setLimits_around (l : Line) (a b : Nat) : (setLimits l a b s).around = s.around := by simp [setLimits]
@[simp] theorem setProfileLimits_around (l : Line) (p : LineProfile) : (setProfileLimits l p s).around = s.around := by
  simp [setProfileLimits]
@[simp] theorem drumNotice_around (l : Line) (old : LineState) : (drumNotice l old s).around = s.around := by
  unfold drumNotice; dsimp only
  split
  · split <;> simp
  · split <;> simp
@[simp] theorem drumSample_around (l : Line) : (drumSample l s).around = s.around := by simp [drumSample]

/-! ## Line changes -/

@[simp] theorem regNotice_around (l : Line) : (regNotice l s).around = s.around := by
  unfold regNotice; dsimp only; split <;> simp
@[simp] theorem notify_around (l : Line) (old : LineState) : (notify l old s).around = s.around := by
  unfold notify; dsimp only
  split
  · simp
  · split <;> simp
@[simp] theorem enter_around (l : Line) (n : LineState) (r : Option Resume) (c : Option FaultCause) :
    (enter l n r c s).around = s.around := by
  unfold enter; dsimp only; split <;> simp
@[simp] theorem enterPlain_around (l : Line) (n : LineState) : (enterPlain l n s).around = s.around := by simp [enterPlain]
@[simp] theorem renotify_around (l : Line) : (renotify l s).around = s.around := by simp [renotify]
@[simp] theorem changeResume_around (l : Line) (r : Resume) : (changeResume l r s).around = s.around := by simp [changeResume]
@[simp] theorem lcuRelease_around (l : Line) : (lcuRelease l s).1.around = s.around := by
  unfold lcuRelease; dsimp only; split
  · rfl
  · split
    · rfl
    · split <;> simp
@[simp] theorem lcuTrip_around (l : Line) : (lcuTrip l s).1.around = s.around := by
  unfold lcuTrip; dsimp only; split
  · rfl
  · split <;> simp
@[simp] theorem lcuResume_around (l : Line) : (lcuResume l s).1.around = s.around := by
  unfold lcuResume; dsimp only; split
  · rfl
  · split
    · split <;> simp
    · rfl

/-! ## Plans -/

@[simp] theorem sendMarks_around (x : LineSet) : (sendMarks x s).around = s.around := rfl
@[simp] theorem takeMark_around (l : Line) : (takeMark l s).around = s.around := rfl
@[simp] theorem clearMarksOf_around (x : LineSet) : (clearMarksOf x s).around = s.around := rfl
@[simp] theorem clearMarks_around : (clearMarks s).around = s.around := rfl
@[simp] theorem holdPlan_around (c : HoldCause) : (holdPlan c s).around = s.around := by
  unfold holdPlan; split <;> simp
@[simp] theorem seqReply_around (l : Line) (c : ReplyCode) : (seqReply l c s).around = s.around := by
  unfold seqReply; split <;> simp
@[simp] theorem lcuHanded_around (h : Handed) : (lcuHanded h s).1.around = s.around := by unfold lcuHanded; split <;> simp
@[simp] theorem takeStepCommand_around (h : Handed) : (takeStepCommand s h).around = s.around := by simp [takeStepCommand]
theorem hand_around (take : State → Handed → State) (x : List Handed) (h : ∀ u c, (take u c).around = u.around) :
    (hand take x s).around = s.around := by
  unfold hand; split
  · rw [inFreeOrder_keeps State.around _ h (fun _ => rfl)]; rfl
  · rfl
@[simp] theorem issueStep_around (st : PlanStep) : (issueStep st s).around = s.around := by
  unfold issueStep; rw [hand_around _ _ fun u c => takeStepCommand_around c]; simp
@[simp] theorem issueCheck_around : (issueCheck s).around = s.around := by
  unfold issueCheck; split
  · rfl
  · split <;> simp
@[simp] theorem makeCurrent_around (n : Nat) : (makeCurrent n s).around = s.around := by
  unfold makeCurrent; split
  · rfl
  · dsimp only; split <;> simp
@[simp] theorem advanceStep_around : (advanceStep s).around = s.around := by
  unfold advanceStep; dsimp only; rw [raise_around]; split <;> simp
@[simp] theorem seqNotice_around (l : Line) (e : Bool) : (seqNotice l e s).around = s.around := by
  unfold seqNotice; split
  · split
    · simp
    · split <;> simp
  · rfl
@[simp] theorem startPlan_around (m : Master) (x : List PlanStep) : (startPlan m x s).around = s.around := by
  simp [startPlan]
@[simp] theorem planSubmit_around (d : Sender) (x : List PlanStepField) : (planSubmit d x s).1.around = s.around := by
  unfold planSubmit
  split
  · rfl
  · split
    · rfl
    · split
      · rfl
      · split
        · rfl
        · split <;> simp
@[simp] theorem planHold_around : (planHold s).1.around = s.around := by unfold planHold; split <;> simp
@[simp] theorem abortPlan_around (c : AbortCause) : (abortPlan c s).around = s.around := by simp [abortPlan]
@[simp] theorem planAbort_around : (planAbort s).1.around = s.around := by unfold planAbort; split <;> simp
@[simp] theorem seqTripAll_around : (seqTripAll s).around = s.around := by unfold seqTripAll; split <;> simp
@[simp] theorem seqCallClosed_around : (seqCallClosed s).around = s.around := by simp [seqCallClosed]
@[simp] theorem takeHanded_around (h : Handed) : (takeHanded s h).around = s.around := by
  unfold takeHanded; dsimp only; split <;> simp
@[simp] theorem takeStoppable_around : (takeStoppable s).around = s.around := by
  unfold takeStoppable; rw [foldl_keeps State.around _ fun u h => takeHanded_around h]; rfl
@[simp] theorem resumePlan_around : (resumePlan s).around = s.around := by
  unfold resumePlan; dsimp only; rw [raise_around]; split
  · simp
  · split
    · simp
    · split
      · simp
      · rw [hand_around _ _ fun u c => takeHanded_around c]
        simp
@[simp] theorem planResume_around (d : Sender) : (planResume d s).1.around = s.around := by
  unfold planResume; dsimp only
  repeat' split
  all_goals simp
@[simp] theorem seqDelayExpiry_around : (seqDelayExpiry s).around = s.around := by
  unfold seqDelayExpiry; split <;> simp
@[simp] theorem seqStepTimeout_around : (seqStepTimeout s).around = s.around := by
  unfold seqStepTimeout; split <;> simp
@[simp] theorem seqPanel_around (a b c : Bool) : (seqPanel a b c s).around = s.around := by
  unfold seqPanel; dsimp only; split <;> simp

/-! ## Profiles in use, and whole changes of a line -/

@[simp] theorem busApplied_around (l : Line) (b : Bool) : (busApplied l b s).around = s.around := by
  simp [busApplied, DriveBus.staleFlight]; rfl
@[simp] theorem drumApplied_around (l : Line) (p q : LineProfile) : (drumApplied l p q s).around = s.around := by
  unfold drumApplied; dsimp only; rw [softZoneTest_around]; split <;> simp
@[simp] theorem lcuApplied_around (l : Line) (p : LineProfile) : (lcuApplied l p s).around = s.around := by
  unfold lcuApplied; dsimp only; split
  · split <;> simp
  · split <;> simp
@[simp] theorem applyLine_around (l : Line) (b : Bool) : (applyLine l b s).around = s.around := by
  have h : ∀ (c : Prop) [Decidable c] (f : State → State) (u : State), (∀ v, (f v).around = v.around) →
      (if c then f u else u).around = u.around := by
    intro c _ f u hf; split <;> simp [hf]
  unfold applyLine
  simp only [raise_around, lcuApplied_around]
  rw [h _ recomputeUnit _ (fun _ => recomputeUnit_around), busApplied_around, State.setReg_around,
    drumApplied_around, State.setLmu_around _ _ (LmuChannel.applied_readings _ _ _)]
  rfl
@[simp] theorem applyBerth_around : (applyBerth s).around = s.around := by simp [applyBerth]; rfl
@[simp] theorem storeNotice_around (l : Line) : (storeNotice l s).around = s.around := by
  unfold storeNotice; split <;> simp
@[simp] theorem changeLine_around (l : Line) (n : LineState) (r : Option Resume) :
    (changeLine l n r s).around = s.around := by simp [changeLine]
@[simp] theorem fault_around (l : Line) (c : FaultCause) : (fault l c s).around = s.around := by
  unfold fault; split <;> simp

/-! ## Line events -/

@[simp] theorem lockLine_around (l : Line) : (lockLine l s).around = s.around := by simp [lockLine]
@[simp] theorem takeRender_around (l : Line) (x : Int) : (takeRender l x s).around = s.around := by
  unfold takeRender; split
  · rfl
  · split <;> simp
@[simp] theorem takeSlack_around (l : Line) : (takeSlack l s).around = s.around := by
  unfold takeSlack; split
  · rfl
  · split <;> simp
@[simp] theorem takeConfirmation_around (l : Line) (k : Condition) (e : LineState) (x : Int) :
    (takeConfirmation l k e x s).around = s.around := by
  unfold takeConfirmation; split
  · rfl
  · split <;> simp
@[simp] theorem takeConfirmations_around (l : Line) (e : LineState) (x : Int) (r : Conditions Confirmation) :
    (takeConfirmations l e x r s).around = s.around :=
  foldl_keeps State.around _ (by intro u k; split <;> simp) _ _
@[simp] theorem surgeChanges_around (l : Line) (b : Bool) : (surgeChanges l b s).around = s.around := by
  unfold surgeChanges; split <;> simp
@[simp] theorem detectorSample_around (l : Line) (m : Sample) : (detectorSample l m s).around = s.around := by
  unfold detectorSample
  split
  · rfl
  · dsimp only
    (repeat' split) <;> simp
@[simp] theorem setSpeed_around (l : Line) (v : Nat) : (setSpeed l v s).around = s.around := by
  unfold setSpeed; dsimp only; split <;> simp
@[simp] theorem endRender_around (l : Line) : (endRender l s).around = s.around := by simp [endRender]
@[simp] theorem regulatorSample_around (l : Line) (m : Sample) : (regulatorSample l m s).around = s.around := by
  unfold regulatorSample; dsimp only; (repeat' split) <;> simp
@[simp] theorem renderCutOff_around (l : Line) (p : Bool) : (renderCutOff l p s).around = s.around := by
  unfold renderCutOff; dsimp only; (repeat' split) <;> simp
@[simp] theorem easeFails_around (l : Line) : (easeFails l s).around = s.around := by simp [easeFails]
@[simp] theorem cutOff_around (l : Line) (a p : Bool) : (cutOff l a p s).around = s.around := by
  unfold cutOff; dsimp only; (repeat' split) <;> simp
@[simp] theorem regulatorPosition_around (l : Line) (b : Bool) : (regulatorPosition l b s).around = s.around := by
  unfold regulatorPosition; dsimp only; (repeat' split) <;> simp
@[simp] theorem derive_around (l : Line) (r : SensedStatus) : (derive l r s).around = s.around := by
  unfold derive; dsimp only; (repeat' split) <;> simp
@[simp] theorem lcuSample_around (l : Line) (m : Sample) : (lcuSample l m s).around = s.around := by
  unfold lcuSample; dsimp only; (repeat' split) <;> simp
@[simp] theorem latchTest_around (l : Line) (r : SensedStatus) : (latchTest l r s).1.around = s.around := by
  unfold latchTest; dsimp only; (repeat' split) <;> simp
@[simp] theorem stowTest_around (l : Line) (r : SensedStatus) : (stowTest l r s).around = s.around := by
  unfold stowTest; dsimp only; (repeat' split) <;> simp
@[simp] theorem statusTests_around (l : Line) (p : Option SensedStatus) (r : SensedStatus) :
    (statusTests l p r s).around = s.around := by
  unfold statusTests; dsimp only; (repeat' split) <;> simp
@[simp] theorem lcuStatus_around (l : Line) (r : SensedStatus) (f : Bool) : (lcuStatus l r f s).around = s.around := by
  unfold lcuStatus; dsimp only; (repeat' split) <;> simp
@[simp] theorem attachExpires_around (l : Line) : (attachExpires l s).around = s.around := by
  unfold attachExpires; split <;> simp
@[simp] theorem easeExpires_around (l : Line) : (easeExpires l s).around = s.around := by
  unfold easeExpires; split <;> simp
@[simp] theorem tensionExpires_around (l : Line) : (tensionExpires l s).around = s.around := by
  unfold tensionExpires; split <;> simp
@[simp] theorem latchExpires_around (l : Line) : (latchExpires l s).around = s.around := by
  unfold latchExpires; split <;> simp
@[simp] theorem rewindExpires_around (l : Line) : (rewindExpires l s).around = s.around := by
  unfold rewindExpires; split <;> simp
@[simp] theorem adoptionExpires_around (l : Line) : (adoptionExpires l s).around = s.around := by
  unfold adoptionExpires; split <;> simp
@[simp] theorem lcuClearFault_around (l : Line) : (lcuClearFault l s).1.around = s.around := by
  unfold lcuClearFault; split
  · dsimp only; rw [changeLine_around]; rfl
  · rfl
@[simp] theorem lcuAttach_around (l : Line) : (lcuAttach l s).1.around = s.around := by
  unfold lcuAttach; dsimp only; (repeat' split) <;> simp
@[simp] theorem lcuCancel_around (l : Line) : (lcuCancel l s).1.around = s.around := by
  unfold lcuCancel; dsimp only; (repeat' split) <;> simp
@[simp] theorem lcuRewind_around (l : Line) : (lcuRewind l s).1.around = s.around := by
  unfold lcuRewind; dsimp only; (repeat' split) <;> simp
@[simp] theorem lcuRebase_around (l : Line) : (lcuRebase l s).1.around = s.around := by
  unfold lcuRebase; split <;> simp
@[simp] theorem lcuZero_around (l : Line) : (lcuZero l s).1.around = s.around := by
  unfold lcuZero; split <;> simp
@[simp] theorem lcuSetTarget_around (l : Line) (n : Nat) : (lcuSetTarget l n s).1.around = s.around := rfl
@[simp] theorem lineCommand_around (l : Line) (c : LineCommand) : (lineCommand l c s).1.around = s.around := by
  unfold lineCommand
  cases c <;> dsimp only <;> (repeat' split) <;> simp
@[simp] theorem tripLines_around : (tripLines s).around = s.around :=
  inFreeOrder_keeps State.around _ (fun _ _ => lcuTrip_around _) (fun _ => rfl) _
@[simp] theorem tripAll_around : (tripAll s).around = s.around := by
  unfold tripAll; dsimp only; split
  · simp
  · simp
@[simp] theorem haltLines_around : (haltLines s).around = s.around := by
  unfold haltLines
  rw [inFreeOrder_keeps State.around _ (fun u x => changeLine_around _ _ _) (fun _ => rfl)]

/-! ## Sampling, positions, statuses -/

@[simp] theorem takeSample_around (l : Line) (m : Sample) (r : Recipient) : (takeSample l m s r).around = s.around := by
  cases r <;> simp [takeSample]
  split <;> simp
@[simp] theorem deliverIn_around (o : List Recipient) (l : Line) (m : Sample) : (deliverIn o l m s).around = s.around :=
  foldl_keeps State.around _ (fun _ _ => takeSample_around _ _ _) _ _
@[simp] theorem deliver_around (l : Line) (m : Sample) : (deliver l m s).around = s.around := by simp [deliver]
theorem completeGood_around (l : Line) (n : Nat) : (completeGood l n s).around =
    (s.setLmu l ((s.lmu.get l).goodSample (s.profile l) n).1).around := by simp [completeGood]
theorem completeNoSignal_around (l : Line) : (completeNoSignal l s).around =
    (s.setLmu l ((s.lmu.get l).noSignal (s.profile l)).1).around := by simp [completeNoSignal]
@[simp] theorem sampleBoundary_around (l : Line) : (sampleBoundary l s).around = s.around := by
  unfold sampleBoundary; dsimp only; split
  · rfl
  · split
    · simp
    · exact State.setLmu_around _ _ rfl
@[simp] theorem holdExpires_around (l : Line) : (holdExpires l s).around = s.around := by
  unfold holdExpires; split <;> simp
@[simp] theorem handPosition_around (l : Line) (a b : Bool) : (handPosition l a b s).around = s.around := by
  unfold handPosition; dsimp only; split <;> simp
@[simp] theorem legalStep_around (l : Line) (q : Quad) (d : Int) : (legalStep l q d s).around = s.around := by simp [legalStep]
@[simp] theorem illegalChange_around (l : Line) (q : Quad) : (illegalChange l q s).around = s.around := by
  unfold illegalChange; dsimp only; split <;> simp
@[simp] theorem decodePair_around (l : Line) (q : Quad) : (decodePair l q s).around = s.around := by
  unfold decodePair; dsimp only; (repeat' split) <;> simp
@[simp] theorem stationaryExpires_around (l : Line) : (stationaryExpires l s).around = s.around := by
  unfold stationaryExpires; dsimp only; (repeat' split) <;> simp
@[simp] theorem selectLine_around (x : Option Line) : (selectLine x s).around = s.around := by simp [selectLine]
@[simp] theorem drumStatus_around (l : Line) (r : SensedStatus) : (drumStatus l r s).around = s.around := by
  unfold drumStatus; dsimp only; split <;> simp
@[simp] theorem takeStatus_around (l : Line) (r : SensedStatus) (f : Bool) : (takeStatus l r f s).around = s.around := by
  unfold takeStatus; (repeat' split) <;> simp

/-! ## The call -/

@[simp] theorem clearCaptures_around : (clearCaptures s).around = s.around := by
  simp [clearCaptures]; rfl
@[simp] theorem openCall_around (c : Half) (x : LineSet) : (openCall c x s).around = s.around := by simp [openCall]; rfl
@[simp] theorem bindAdopted_around (c : Half) (x : LineSet) : (bindAdopted c x s).around = s.around := by
  simp [bindAdopted]; rfl
@[simp] theorem bindCall_around (c : Half) (x : LineSet) : (bindCall c x s).1.around = s.around := by
  unfold bindCall; dsimp only; (repeat' split) <;> simp
@[simp] theorem closeCall_around (m : Master) : (closeCall m s).around = s.around := by
  unfold closeCall; dsimp only; split <;> simp <;> rfl
@[simp] theorem closeIfClear_around (m : Master) : (closeIfClear m s).1.around = s.around := by
  unfold closeIfClear; (repeat' split) <;> simp
@[simp] theorem unbindCall_around : (unbindCall s).1.around = s.around := by
  unfold unbindCall; split <;> simp
@[simp] theorem closeByShore_around : (closeByShore s).1.around = s.around := by
  unfold closeByShore; split <;> simp
@[simp] theorem attachTaken_around (x : Sender) (u : State) (r : State × Reply) :
    (attachTaken x u r).1.around = r.1.around := by
  unfold attachTaken; split <;> rfl
@[simp] theorem tellPanel_around : (tellPanel s).around = s.around := rfl
@[simp] theorem stopActivated_around : (stopActivated s).around = s.around := by
  unfold stopActivated; dsimp only; split <;> simp
@[simp] theorem panelChanged_around (i : PanelInput) (a : Bool) : (panelChanged i a s).around = s.around := by
  unfold panelChanged; dsimp only; cases i <;> cases a <;> simp

end Sys2Proof.Machine
end

