-- ==== Sys2Proof/Laws/Bus.lean ====
section
/-! SUPPORT. The bytes that a completed STATUS is decoded from (R147, R151, R152), which failures a transaction can still have (R150,
R151), and when a call may close (R133, R135). -/

namespace Sys2Proof.Machine

variable {s : State}

/-- A completed STATUS is decoded from the bytes in its buffer, and from the command's where none had arrived. -/
theorem arrived_sixBytes (f : InFlight) (b : StatusBytes) : statusBytesOf (f.arrived b).buffer = sixBytes f b := by
  obtain ⟨r, a, ph, buf, fr⟩ := f
  rcases buf with _ | ⟨_, _ | ⟨_, _ | ⟨_, _ | ⟨_, _ | ⟨_, _ | ⟨_, _ | ⟨_, _⟩⟩⟩⟩⟩⟩⟩ <;>
    simp [InFlight.arrived, InFlight.received, sixBytes, statusBytesOf, busBuffer]

/-- Before any byte has arrived, the command's six bytes are the ones decoded. -/
theorem sixBytes_started (f : InFlight) (b : StatusBytes) (h : f.buffer.length ≤ 1) : sixBytes f b = b := by
  simp [sixBytes, show ∀ n, 1 ≤ n → f.buffer[n]? = none from fun n hn =>
    List.getElem?_eq_none (by omega)]

/-- A failure can come about where the transaction has not gone past every phase in which the acknowledge can be missing. -/
theorem canFail_iff (f : InFlight) (why : NoAck) (h : s.bus.inFlight = some f) : canFail why s = true ↔ stillAhead f why := by
  obtain ⟨⟨l, k, u⟩, a, ph, buf, fr⟩ := f
  unfold canFail
  rw [h]
  cases why <;> cases k <;> cases ph <;> simp [stillAhead, InFlight.ahead, RecordKind.phases, refusablePhases]

/-- The Supervisor's test of the Depart condition. -/
theorem departCondition_iff : departCondition s.sup = true ↔ departHolds s := by
  unfold departCondition departHolds
  rw [Lines.allB_iff]
  refine forall_congr' fun l => ?_
  unfold departs
  cases h : (s.sup.view.get l).state <;> simp [h]

/-- The two masters are two: an ATTACH of a master other than this one is the other's. -/
theorem checkedBefore_iff (m other : Master) (h : other ≠ m) :
    checkedBefore m s = true ↔ s.sup.closeChecked = some (other, s.now) := by
  unfold checkedBefore
  cases hc : s.sup.closeChecked with
  | none => simp
  | some p => obtain ⟨x, n⟩ := p; cases m <;> cases other <;> cases x <;> simp_all

end Sys2Proof.Machine
end

