-- ==== Sys2Proof/Laws/LineFrame.lean ====
section
/-! SUPPORT. The frame of a change of one line (`LineFrame`), operation by operation. -/

namespace Sys2Proof.Machine

variable {s t u : State} {l : Line}

theorem LineFrame.refl : LineFrame l s s := ⟨rfl, fun _ _ => rfl, rfl, rfl, rfl, rfl, rfl, rfl, rfl, ⟨rfl, rfl, rfl, rfl⟩, fun _ _ => rfl⟩

theorem LineFrame.trans (h : LineFrame l s t) (k : LineFrame l t u) : LineFrame l s u where
  outside := k.outside.trans h.outside
  others m hm := (k.others m hm).trans (h.others m hm)
  plan := k.plan.trans h.plan
  handed := k.handed.trans h.handed
  repeater := k.repeater.trans h.repeater
  store := k.store.trans h.store
  inFlight := k.inFlight.trans h.inFlight
  modules := k.modules.trans h.modules
  queue := k.queue.trans h.queue
  captures := ⟨k.captures.1.trans h.captures.1, k.captures.2.1.trans h.captures.2.1,
    k.captures.2.2.1.trans h.captures.2.2.1, k.captures.2.2.2.trans h.captures.2.2.2⟩
  events m hm := (k.events m hm).trans (h.events m hm)

/-- The frame from its parts, for an operation that leaves the bus and the plan alone. -/
theorem LineFrame.of (ho : t.outside = s.outside) (hl : ∀ m, m ≠ l → t.lineItems m = s.lineItems m) (hp : t.plan = s.plan)
    (hr : t.repeater = s.repeater) (hs : t.store = s.store) (hb : t.bus = s.bus)
    (hc : t.sup.firstOverload = s.sup.firstOverload ∧ t.sup.firstFault = s.sup.firstFault
      ∧ t.sup.overloadCount = s.sup.overloadCount ∧ t.sup.faultCount = s.sup.faultCount)
    (he : ∀ m, m ≠ l → t.shore.events.lines.get m = s.shore.events.lines.get m)
    (hh : t.handed = s.handed := by rfl) : LineFrame l s t :=
  ⟨ho, hl, hp, hh, hr, hs, by rw [hb], by rw [hb], by rw [hb], hc, he⟩

theorem LineFrame.ite {c : Prop} [Decidable c] (h : LineFrame l s t) (k : LineFrame l s u) : LineFrame l s (if c then t else u) := by
  split
  · exact h
  · exact k

theorem setLmu_lineFrame (c : LmuChannel) : LineFrame l s (s.setLmu l c) :=
  .of rfl (fun m hm => by simp [State.lineItems, hm]) rfl rfl rfl rfl ⟨rfl, rfl, rfl, rfl⟩ (fun _ _ => rfl)
theorem setDet_lineFrame (c : DetectorChannel) : LineFrame l s (s.setDet l c) :=
  .of rfl (fun m hm => by simp [State.lineItems, hm]) rfl rfl rfl rfl ⟨rfl, rfl, rfl, rfl⟩ (fun _ _ => rfl)
theorem setDrum_lineFrame (c : DrumChannel) : LineFrame l s (s.setDrum l c) :=
  .of rfl (fun m hm => by simp [State.lineItems, hm]) rfl rfl rfl rfl ⟨rfl, rfl, rfl, rfl⟩ (fun _ _ => rfl)
theorem setLcu_lineFrame (c : LcuChannel) : LineFrame l s (s.setLcu l c) :=
  .of rfl (fun m hm => by simp [State.lineItems, hm]) rfl rfl rfl rfl ⟨rfl, rfl, rfl, rfl⟩ (fun _ _ => rfl)
theorem setReg_lineFrame (c : RegulatorChannel) : LineFrame l s (s.setReg l c) :=
  .of rfl (fun m hm => by simp [State.lineItems, hm]) rfl rfl rfl rfl ⟨rfl, rfl, rfl, rfl⟩ (fun _ _ => rfl)
theorem drawn_lineFrame : LineFrame l s s.drawn :=
  .of rfl (fun _ _ => rfl) rfl rfl rfl rfl ⟨rfl, rfl, rfl, rfl⟩ (fun _ _ => rfl)

/-- What `raise` does: the event sets, ATTN_S and the owed report, and nothing else (R171, R176, R178). -/
theorem raise_eq (k : EventKind) (g : Tag) (s : State) :
    raise k g s =
      { s with
        shore := { s.shore with
          events := s.shore.events.add k g
          attnLow := (s.shore.events.add k g).berth.resetSeen || (s.shore.events.add k g).meets s.shore.mask }
        vessel := s.vessel.withEvent k g } := rfl

@[simp] theorem raise_lmu (k : EventKind) (g : Tag) : (raise k g s).lmu = s.lmu := rfl
@[simp] theorem raise_det (k : EventKind) (g : Tag) : (raise k g s).det = s.det := rfl
@[simp] theorem raise_drum (k : EventKind) (g : Tag) : (raise k g s).drum = s.drum := rfl
@[simp] theorem raise_repeater (k : EventKind) (g : Tag) : (raise k g s).repeater = s.repeater := rfl
@[simp] theorem raise_lcu (k : EventKind) (g : Tag) : (raise k g s).lcu = s.lcu := rfl
@[simp] theorem raise_reg (k : EventKind) (g : Tag) : (raise k g s).reg = s.reg := rfl
@[simp] theorem raise_plan (k : EventKind) (g : Tag) : (raise k g s).plan = s.plan := rfl
@[simp] theorem raise_sup (k : EventKind) (g : Tag) : (raise k g s).sup = s.sup := rfl
@[simp] theorem raise_bus (k : EventKind) (g : Tag) : (raise k g s).bus = s.bus := rfl
@[simp] theorem raise_store (k : EventKind) (g : Tag) : (raise k g s).store = s.store := rfl
@[simp] theorem raise_pins (k : EventKind) (g : Tag) : (raise k g s).pins = s.pins := rfl
@[simp] theorem raise_choices (k : EventKind) (g : Tag) : (raise k g s).choices = s.choices := rfl
@[simp] theorem raise_pending (k : EventKind) (g : Tag) : (raise k g s).pending = s.pending := rfl
@[simp] theorem raise_resetting (k : EventKind) (g : Tag) : (raise k g s).resetting = s.resetting := rfl
@[simp] theorem raise_events (k : EventKind) (g : Tag) : (raise k g s).shore.events = s.shore.events.add k g := rfl
@[simp] theorem raise_slot (k : EventKind) (g : Tag) : (raise k g s).shore.slot = s.shore.slot := rfl
@[simp] theorem raise_stateOf (k : EventKind) (g : Tag) (m : Line) : (raise k g s).stateOf m = s.stateOf m := rfl
@[simp] theorem raise_profile (k : EventKind) (g : Tag) (m : Line) : (raise k g s).profile m = s.profile m := rfl
@[simp] theorem raise_lineItems (k : EventKind) (g : Tag) (m : Line) : (raise k g s).lineItems m = s.lineItems m := rfl

theorem raise_lineFrame (k : EventKind) : LineFrame l s (raise k (.line l) s) :=
  .of (outside_of_around (raise_around _ _)) (fun _ _ => rfl) rfl rfl rfl rfl ⟨rfl, rfl, rfl, rfl⟩ (fun m hm => by simp [EventSet.add, hm])
theorem raise_berth_lineFrame (k : EventKind) : LineFrame l s (raise k .berth s) :=
  .of (outside_of_around (raise_around _ _)) (fun _ _ => rfl) rfl rfl rfl rfl ⟨rfl, rfl, rfl, rfl⟩ (fun _ _ => rfl)

/-! ## The drive queue -/

theorem filter_behindUrgent (p : BusRecord → Bool) (r : BusRecord) (q : List BusRecord) (h : p r = false) :
    (behindUrgent r q).filter p = q.filter p := by
  unfold behindUrgent
  rw [List.filter_append, List.filter_cons_of_neg (by simp [h]), ← List.filter_append, List.takeWhile_append_dropWhile]

/-- Placing a COMMAND leaves every record that is not a COMMAND of its line, in its order (R154). -/
theorem placeCommand_others (l : Line) (i : Intent) (v : Bool) (q : List BusRecord) :
    (placeCommand l i v q).filter (fun r => !r.isCommand l) = q.filter fun r => !r.isCommand l := by
  have hc : ∀ v, (fun r : BusRecord => !r.isCommand l) ⟨l, .command i, v⟩ = false := by intro v; simp [BusRecord.isCommand]
  unfold placeCommand
  split
  · split
    · exact filter_behindUrgent _ _ _ (hc _)
    · simp [List.filter_append, BusRecord.isCommand]
  · split
    · rw [filter_behindUrgent _ _ _ (hc _), List.filter_filter]; simp
    · rw [List.filter_map]
      have : ((fun r : BusRecord => !r.isCommand l) ∘ fun r : BusRecord =>
          if r.isCommand l then { r with kind := .command i } else r) = fun r => !r.isCommand l := by
        funext r
        by_cases h : r.isCommand l
        · simp only [Function.comp, h, if_true]
          simp [BusRecord.isCommand] at h ⊢
          exact h.1
        · simp [Function.comp, h]
      rw [this]
      rw [List.map_congr_left (g := id) (by intro r hr; simp at hr; simp [hr]), List.map_id]

theorem queueCommand_lineFrame (i : Intent) (v : Bool) : LineFrame l s (queueCommand l i v s) where
  outside := rfl
  others _ _ := rfl
  plan := rfl
  handed := rfl
  repeater := rfl
  store := rfl
  inFlight := rfl
  modules := rfl
  queue := placeCommand_others l i v s.bus.queue
  captures := ⟨rfl, rfl, rfl, rfl⟩
  events _ _ := rfl

theorem refreshIntent_lineFrame (e : Bool) : LineFrame l s (refreshIntent l e s) := by
  unfold refreshIntent
  dsimp only
  split
  · exact setLcu_lineFrame _
  · split <;> split <;> first | exact setLcu_lineFrame _ | exact (setLcu_lineFrame _).trans (queueCommand_lineFrame _ _)

/-! ## Supervisor -/

/-- An update of the Supervisor that keeps the panel inputs, the captures and the other lines' views. -/
theorem setSup_lineFrame (w : Supervisor) (hp : w.trip = s.sup.trip ∧ w.stop = s.sup.stop ∧ w.rampClear = s.sup.rampClear)
    (hc : w.firstOverload = s.sup.firstOverload ∧ w.firstFault = s.sup.firstFault
      ∧ w.overloadCount = s.sup.overloadCount ∧ w.faultCount = s.sup.faultCount)
    (hv : ∀ m, m ≠ l → w.view.get m = s.sup.view.get m) : LineFrame l s (s.setSup w) :=
  .of (outside_of_around (State.setSup_around _ hp)) (fun m hm => by simp [State.lineItems, hv m hm]) rfl rfl rfl rfl hc (fun _ _ => rfl)

theorem setSup_same (w : Supervisor)
    (hp : (w.trip, w.stop, w.rampClear) = (s.sup.trip, s.sup.stop, s.sup.rampClear) := by rfl)
    (hc : (w.firstOverload, w.firstFault, w.overloadCount, w.faultCount)
      = (s.sup.firstOverload, s.sup.firstFault, s.sup.overloadCount, s.sup.faultCount) := by rfl)
    (hv : w.view = s.sup.view := by rfl) : LineFrame l s (s.setSup w) :=
  setSup_lineFrame w (by simpa using hp) (by simpa using hc) (fun _ _ => by rw [hv])

theorem evalPermits_lineFrame : LineFrame l s (evalPermits s) := by
  unfold evalPermits
  dsimp only
  have h : LineFrame l s (s.setSup { s.sup with
      rampPermit := rampCondition s.sup, departPermit := departPermitCondition s.sup }) :=
    setSup_lineFrame _ ⟨rfl, rfl, rfl⟩ ⟨rfl, rfl, rfl, rfl⟩ (fun _ _ => rfl)
  split
  · exact h
  · exact h.trans (raise_berth_lineFrame _)

theorem tellAssignment_lineFrame : LineFrame l s (tellAssignment s) :=
  .of rfl (fun m _ => by simp [tellAssignment, State.lineItems]) rfl rfl rfl rfl ⟨rfl, rfl, rfl, rfl⟩ (fun _ _ => rfl)

theorem setPhase_lineFrame (p : CallPhase) : LineFrame l s (setPhase p s) :=
  .trans (setSup_same _) (raise_berth_lineFrame _)

theorem advanceArriving_lineFrame : LineFrame l s (advanceArriving s) := by
  unfold advanceArriving
  split
  · exact .trans (setSup_same _) (setPhase_lineFrame _)
  · exact .refl

theorem advanceLettingGo_lineFrame : LineFrame l s (advanceLettingGo s) := by
  unfold advanceLettingGo
  split
  · exact setPhase_lineFrame _
  · exact .refl

theorem advancePhase_lineFrame : LineFrame l s (advancePhase s) := advanceArriving_lineFrame.trans advanceLettingGo_lineFrame

theorem beginLetGo_lineFrame : LineFrame l s (beginLetGo s) := by
  unfold beginLetGo
  split
  · exact setPhase_lineFrame _
  · exact .refl

theorem openAdopted_lineFrame : LineFrame l s (openAdopted s) := by
  unfold openAdopted
  dsimp only
  split
  · exact .trans (.trans (setSup_same _) tellAssignment_lineFrame) (raise_berth_lineFrame _)
  · exact .refl

theorem settleAdoption_lineFrame : LineFrame l s (settleAdoption s) := by
  unfold settleAdoption
  split
  · exact .trans (setSup_same _) openAdopted_lineFrame
  · exact .refl

theorem setView_lineFrame (v : LineView) : LineFrame l s (setView l v s) :=
  setSup_lineFrame _ ⟨rfl, rfl, rfl⟩ ⟨rfl, rfl, rfl, rfl⟩ (fun m hm => by simp [hm])

theorem dropAssigned_lineFrame : LineFrame l s (dropAssigned l s) := by
  unfold dropAssigned
  split
  · exact .trans (.trans (setSup_same _) tellAssignment_lineFrame) (raise_berth_lineFrame _)
  · exact .refl

theorem supNotice_lineFrame : LineFrame l s (supNotice l s) := by
  unfold supNotice
  dsimp only
  refine LineFrame.trans ?_ (advancePhase_lineFrame.trans (settleAdoption_lineFrame.trans evalPermits_lineFrame))
  have hd (v : LineView) (c : Prop) [Decidable c] : LineFrame l s (if c then dropAssigned l (setView l v s) else setView l v s) :=
    .ite ((setView_lineFrame _).trans dropAssigned_lineFrame) (setView_lineFrame _)
  exact .ite ((hd _ _).trans beginLetGo_lineFrame) (hd _ _)

theorem supSurgeEnd_lineFrame : LineFrame l s (supSurgeEnd l s) := (setView_lineFrame _).trans evalPermits_lineFrame

theorem supSurgeStart_lineFrame : LineFrame l s (supSurgeStart l s) := by
  unfold supSurgeStart
  dsimp only
  refine LineFrame.trans ?_ evalPermits_lineFrame
  split
  · exact .trans (setView_lineFrame _) (setSup_same _)
  · exact setView_lineFrame _

theorem setRenderInhibit_lineFrame (v : Bool) : LineFrame l s (setRenderInhibit l v s) := by
  unfold setRenderInhibit
  dsimp only
  split
  · exact .refl
  · exact (((setLcu_lineFrame _).trans (raise_lineFrame _)).trans (setView_lineFrame _)).trans evalPermits_lineFrame

theorem setRecoverInhibit_lineFrame (v : Bool) : LineFrame l s (setRecoverInhibit l v s) := by
  unfold setRecoverInhibit
  dsimp only
  split
  · exact .refl
  · exact (((setLcu_lineFrame _).trans (raise_lineFrame _)).trans (setView_lineFrame _)).trans evalPermits_lineFrame

theorem clearInhibits_lineFrame : LineFrame l s (clearInhibits l s) :=
  (setRenderInhibit_lineFrame _).trans (setRecoverInhibit_lineFrame _)

/-! ## Notices and the entry to a state -/

theorem gateStart_lineFrame : LineFrame l s (gateStart l s) := setLmu_lineFrame _
theorem reseed_lineFrame : LineFrame l s (reseed l s) := setLmu_lineFrame _
theorem tellCounters_lineFrame (v : Bool) : LineFrame l s (tellCounters l v s) := setLmu_lineFrame _
theorem tellSurge_lineFrame (v : Bool) : LineFrame l s (tellSurge l v s) := setLmu_lineFrame _

theorem lmuNotice_lineFrame : LineFrame l s (lmuNotice l s) := by
  unfold lmuNotice
  dsimp only
  split
  · exact (setLmu_lineFrame _).trans gateStart_lineFrame
  · exact setLmu_lineFrame _

theorem signalCounters_lineFrame : LineFrame l s (signalCounters l s) := by
  unfold signalCounters
  dsimp only
  split
  · exact .refl
  · exact (setDet_lineFrame _).trans (tellCounters_lineFrame _)

theorem surgeEnded_lineFrame : LineFrame l s (surgeEnded l s) :=
  ((raise_lineFrame _).trans supSurgeEnd_lineFrame).trans (tellSurge_lineFrame _)
theorem surgeStarted_lineFrame : LineFrame l s (surgeStarted l s) :=
  ((raise_lineFrame _).trans supSurgeStart_lineFrame).trans (tellSurge_lineFrame _)

theorem detNotice_lineFrame : LineFrame l s (detNotice l s) := by
  unfold detNotice
  dsimp only
  refine LineFrame.trans ?_ signalCounters_lineFrame
  split
  · exact (setDet_lineFrame _).trans surgeEnded_lineFrame
  · exact setDet_lineFrame _

theorem setLimits_lineFrame (a b : Nat) : LineFrame l s (setLimits l a b s) := (setDrum_lineFrame _).trans (setReg_lineFrame _)

/-- A notice at the Drum Counter, but for an entry to DISABLED, which may reach the repeater. -/
theorem drumNotice_lineFrame (old : LineState) (h : s.stateOf l ≠ .disabled) : LineFrame l s (drumNotice l old s) := by
  unfold drumNotice
  dsimp only
  simp only [h, decide_false, Bool.false_and, Bool.false_eq_true, if_false]
  split
  · exact (setLimits_lineFrame _ _).trans (setDrum_lineFrame _)
  · exact .refl

theorem regNotice_lineFrame : LineFrame l s (regNotice l s) := by
  unfold regNotice
  dsimp only
  split
  · exact (setReg_lineFrame _).trans (raise_lineFrame _)
  · exact setReg_lineFrame _

theorem notify_lineFrame (old : LineState) (h : s.stateOf l ≠ .disabled) : LineFrame l s (notify l old s) := by
  have h' : (lmuNotice l s).stateOf l ≠ .disabled := by
    unfold lmuNotice gateStart; dsimp only; split <;> simpa using h
  unfold notify
  dsimp only
  refine LineFrame.trans ?_ (raise_lineFrame _)
  have h0 := (lmuNotice_lineFrame (l := l) (s := s)).trans ((drumNotice_lineFrame old h').trans regNotice_lineFrame)
  split
  · exact h0.trans (drawn_lineFrame.trans (detNotice_lineFrame.trans supNotice_lineFrame))
  · split
    · exact h0.trans (drawn_lineFrame.trans (supNotice_lineFrame.trans detNotice_lineFrame))
    · exact h0.trans (detNotice_lineFrame.trans supNotice_lineFrame)

end Sys2Proof.Machine
end

