-- ==== Sys2Proof/Laws/Entry.lean ====
section
/-! SUPPORT. What the Supervisor's work leaves alone, and what an entry to a line state does (R60 to R64). -/

namespace Sys2Proof

/-- A kind just added is present. -/
@[simp] theorem KindSet.has_add_same (x : KindSet) (k : EventKind) : (x.add k).has k = true := by cases k <;> rfl

/-- Adding a kind removes none. -/
theorem KindSet.has_add (x : KindSet) (k j : EventKind) (h : x.has j = true) : (x.add k).has j = true := by
  cases k <;> cases j <;> first | rfl | exact h

namespace Machine

variable {s t : State} {l : Line}

/-- A pair just added is present, and adding removes none. -/
@[simp] theorem EventSet.has_add_same (x : EventSet) (k : EventKind) (g : Tag) : ((x.add k g).get g).has k = true := by
  cases g <;> simp [EventSet.add, EventSet.get]

theorem EventSet.has_add (x : EventSet) (k j : EventKind) (g g' : Tag) (h : (x.get g').has j = true) :
    ((x.add k g).get g').has j = true := by
  cases g with
  | berth => cases g' <;> simp_all [EventSet.add, EventSet.get, KindSet.has_add]
  | line l =>
    cases g' with
    | berth => exact h
    | line m =>
      simp only [EventSet.get, EventSet.add, Lines.get_set] at h ⊢
      split
      · subst_vars; exact KindSet.has_add _ _ _ h
      · exact h

/-! ## What the Supervisor leaves alone -/

/-- Everything but the LMU, the Supervisor, the ports and the free choices. -/
def State.machinery (s : State) : State :=
  { s with lmu := Lines.const LmuChannel.reset, sup := Supervisor.reset, shore := ShorePort.reset, vessel := VesselPort.reset 0
           choices := 0 }

theorem machinery_det (h : t.machinery = s.machinery) : t.det = s.det := (congrArg State.det h :)
theorem machinery_drum (h : t.machinery = s.machinery) : t.drum = s.drum := (congrArg State.drum h :)
theorem machinery_repeater (h : t.machinery = s.machinery) : t.repeater = s.repeater := (congrArg State.repeater h :)
theorem machinery_lcu (h : t.machinery = s.machinery) : t.lcu = s.lcu := (congrArg State.lcu h :)
theorem machinery_reg (h : t.machinery = s.machinery) : t.reg = s.reg := (congrArg State.reg h :)
theorem machinery_plan (h : t.machinery = s.machinery) : t.plan = s.plan := (congrArg State.plan h :)
theorem machinery_bus (h : t.machinery = s.machinery) : t.bus = s.bus := (congrArg State.bus h :)
theorem machinery_store (h : t.machinery = s.machinery) : t.store = s.store := (congrArg State.store h :)
theorem machinery_pins (h : t.machinery = s.machinery) : t.pins = s.pins := (congrArg State.pins h :)

@[simp] theorem raise_machinery (k : EventKind) (g : Tag) : (raise k g s).machinery = s.machinery := rfl
@[simp] theorem State.setSup_machinery (w : Supervisor) : (s.setSup w).machinery = s.machinery := rfl
@[simp] theorem State.setLmu_machinery (c : LmuChannel) : (s.setLmu l c).machinery = s.machinery := rfl
@[simp] theorem State.drawn_machinery : s.drawn.machinery = s.machinery := rfl
@[simp] theorem setView_machinery (v : LineView) : (setView l v s).machinery = s.machinery := rfl
@[simp] theorem tellAssignment_machinery : (tellAssignment s).machinery = s.machinery := rfl
@[simp] theorem evalPermits_machinery : (evalPermits s).machinery = s.machinery := by
  unfold evalPermits; dsimp only; split <;> rfl
@[simp] theorem setPhase_machinery (p : CallPhase) : (setPhase p s).machinery = s.machinery := rfl
@[simp] theorem advancePhase_machinery : (advancePhase s).machinery = s.machinery := by
  have a : ∀ u : State, (advanceArriving u).machinery = u.machinery := by intro u; unfold advanceArriving; split <;> rfl
  have b : ∀ u : State, (advanceLettingGo u).machinery = u.machinery := by intro u; unfold advanceLettingGo; split <;> rfl
  simp [advancePhase, a, b]
@[simp] theorem beginLetGo_machinery : (beginLetGo s).machinery = s.machinery := by unfold beginLetGo; split <;> rfl
@[simp] theorem settleAdoption_machinery : (settleAdoption s).machinery = s.machinery := by
  unfold settleAdoption openAdopted; dsimp only; split
  · split <;> rfl
  · rfl
@[simp] theorem dropAssigned_machinery : (dropAssigned l s).machinery = s.machinery := by
  unfold dropAssigned; split <;> rfl
@[simp] theorem supNotice_machinery : (supNotice l s).machinery = s.machinery := by
  unfold supNotice; dsimp only; simp only [evalPermits_machinery, settleAdoption_machinery, advancePhase_machinery]
  split <;> split <;> simp
@[simp] theorem supSurgeEnd_machinery : (supSurgeEnd l s).machinery = s.machinery := by simp [supSurgeEnd]
@[simp] theorem supSurgeStart_machinery : (supSurgeStart l s).machinery = s.machinery := by
  unfold supSurgeStart; dsimp only; split <;> simp

/-! ## The views of the line's state -/

/-- The LMU's view of a line's state, unchanged by what does not notify it. -/
theorem evalPermits_lmu : (evalPermits s).lmu = s.lmu := by unfold evalPermits; dsimp only; split <;> rfl

/-- An LMU channel apart from its view of the assignment. -/
def State.lmuItems (s : State) (m : Line) : LmuChannel := { s.lmu.get m with assignedView := false }

@[simp] theorem raise_lmuItems (k : EventKind) (g : Tag) (m : Line) : (raise k g s).lmuItems m = s.lmuItems m := rfl
@[simp] theorem setSup_lmuItems (w : Supervisor) (m : Line) : (s.setSup w).lmuItems m = s.lmuItems m := rfl
@[simp] theorem setView_lmuItems (v : LineView) (m : Line) : (setView l v s).lmuItems m = s.lmuItems m := rfl
@[simp] theorem tellAssignment_lmuItems (m : Line) : (tellAssignment s).lmuItems m = s.lmuItems m := by
  simp [tellAssignment, State.lmuItems]
@[simp] theorem evalPermits_lmuItems (m : Line) : (evalPermits s).lmuItems m = s.lmuItems m := by
  simp [State.lmuItems, evalPermits_lmu]
@[simp] theorem advancePhase_lmuItems (m : Line) : (advancePhase s).lmuItems m = s.lmuItems m := by
  have a : ∀ u : State, (advanceArriving u).lmuItems m = u.lmuItems m := by intro u; unfold advanceArriving; split <;> rfl
  have b : ∀ u : State, (advanceLettingGo u).lmuItems m = u.lmuItems m := by intro u; unfold advanceLettingGo; split <;> rfl
  simp [advancePhase, a, b]
@[simp] theorem beginLetGo_lmuItems (m : Line) : (beginLetGo s).lmuItems m = s.lmuItems m := by
  unfold beginLetGo; split <;> rfl
@[simp] theorem settleAdoption_lmuItems (m : Line) : (settleAdoption s).lmuItems m = s.lmuItems m := by
  unfold settleAdoption openAdopted; dsimp only; split
  · split <;> simp [setAdoption]
  · rfl
@[simp] theorem dropAssigned_lmuItems (m : Line) : (dropAssigned l s).lmuItems m = s.lmuItems m := by
  unfold dropAssigned; split <;> simp
@[simp] theorem supNotice_lmuItems (m : Line) : (supNotice l s).lmuItems m = s.lmuItems m := by
  unfold supNotice; dsimp only; simp only [evalPermits_lmuItems, settleAdoption_lmuItems, advancePhase_lmuItems]
  split <;> split <;> simp
@[simp] theorem supSurgeEnd_lmuItems (m : Line) : (supSurgeEnd l s).lmuItems m = s.lmuItems m := by simp [supSurgeEnd]
@[simp] theorem supSurgeStart_lmuItems (m : Line) : (supSurgeStart l s).lmuItems m = s.lmuItems m := by
  unfold supSurgeStart; dsimp only; split <;> simp

theorem evalPermits_view : (evalPermits s).sup.view = s.sup.view := by unfold evalPermits; dsimp only; split <;> rfl
theorem advancePhase_view : (advancePhase s).sup.view = s.sup.view := by
  have a : ∀ u : State, (advanceArriving u).sup.view = u.sup.view := by intro u; unfold advanceArriving; split <;> rfl
  have b : ∀ u : State, (advanceLettingGo u).sup.view = u.sup.view := by intro u; unfold advanceLettingGo; split <;> rfl
  simp [advancePhase, a, b]
theorem settleAdoption_view : (settleAdoption s).sup.view = s.sup.view := by
  unfold settleAdoption openAdopted; dsimp only; split
  · split <;> rfl
  · rfl
theorem beginLetGo_view : (beginLetGo s).sup.view = s.sup.view := by unfold beginLetGo; split <;> rfl
theorem dropAssigned_view : (dropAssigned l s).sup.view = s.sup.view := by unfold dropAssigned; split <;> rfl

/-- The Supervisor's view of a line after its notice (R129). -/
theorem supNotice_view : (supNotice l s).sup.view.get l =
    { s.sup.view.get l with
      state := s.stateOf l
      latchIntent := (s.lcu.get l).intent.map (·.latch)
      lastLatch := (s.lcu.get l).lastStatus.map (·.latch)
      renderInhibited := !(s.stateOf l == .disabled) && (s.sup.view.get l).renderInhibited
      recoverInhibited := !(s.stateOf l == .disabled) && (s.sup.view.get l).recoverInhibited } := by
  unfold supNotice
  dsimp only
  rw [evalPermits_view, settleAdoption_view, advancePhase_view]
  split <;> split <;> simp only [beginLetGo_view, dropAssigned_view, setView, State.stateOf, State.setSup_sup, Lines.get_set_same]

/-! ## Events stay pending -/

/-- No pair leaves the pending sets. -/
def EventsGrow (s t : State) : Prop :=
  (∀ g k, (s.shore.events.get g).has k = true → (t.shore.events.get g).has k = true)
  ∧ (∀ g k, (s.vessel.events.get g).has k = true → (t.vessel.events.get g).has k = true)
  ∧ t.vessel.tx = s.vessel.tx

theorem EventsGrow.refl : EventsGrow s s := ⟨fun _ _ h => h, fun _ _ h => h, rfl⟩
theorem EventsGrow.trans {u : State} (h : EventsGrow s t) (k : EventsGrow t u) : EventsGrow s u :=
  ⟨fun g j x => k.1 g j (h.1 g j x), fun g j x => k.2.1 g j (h.2.1 g j x), k.2.2.trans h.2.2⟩

theorem withEvent_events (v : VesselPort) (k : EventKind) (g : Tag) :
    (v.withEvent k g).events = if vesselReceives k then v.events.add k g else v.events := by
  unfold VesselPort.withEvent; split <;> rfl
theorem withEvent_tx (v : VesselPort) (k : EventKind) (g : Tag) : (v.withEvent k g).tx = v.tx := by
  unfold VesselPort.withEvent; split <;> rfl

theorem raise_grows (k : EventKind) (g : Tag) : EventsGrow s (raise k g s) := by
  refine ⟨fun g' j h => EventSet.has_add _ _ _ _ _ h, fun g' j h => ?_, withEvent_tx _ _ _⟩
  show (((s.vessel.withEvent k g).events).get g').has j = true
  rw [withEvent_events]
  split
  · exact EventSet.has_add _ _ _ _ _ h
  · exact h

/-- An event just raised is pending at both ports that receive it (R178). -/
theorem raise_raised (k : EventKind) (g : Tag) : Raised k g s (raise k g s) := by
  refine ⟨by simp, fun hv _ => ?_⟩
  show (((s.vessel.withEvent k g).events).get g).has k = true
  rw [withEvent_events, if_pos hv]
  simp

theorem raise_tx (k : EventKind) (g : Tag) : (raise k g s).vessel.tx = s.vessel.tx := withEvent_tx _ _ _

theorem Raised.grow {u : State} {k : EventKind} {g : Tag} (h : Raised k g s t) (e : EventsGrow t u) : Raised k g s u :=
  ⟨e.1 g k h.1, fun hv ht => e.2.1 g k (h.2 hv ht)⟩

theorem Raised.of_tx {r : State} {k : EventKind} {g : Tag} (h : Raised k g s t) (e : r.vessel.tx = s.vessel.tx) :
    Raised k g r t := ⟨h.1, fun hv ht => h.2 hv (e ▸ ht)⟩

/-- An operation built of the ports' untouched parts. -/
theorem EventsGrow.of (h : t.shore.events = s.shore.events) (h' : t.vessel = s.vessel) : EventsGrow s t := by
  refine ⟨fun g k x => by rw [h]; exact x, fun g k x => by rw [h']; exact x, by rw [h']⟩

/-- A step after an update that leaves the ports alone. -/
theorem EventsGrow.pre {u : State} (k : EventsGrow t u) (h : t.shore.events = s.shore.events := by rfl)
    (h' : t.vessel = s.vessel := by rfl) : EventsGrow s u := (EventsGrow.of h h').trans k

theorem EventsGrow.ite {c : Prop} [Decidable c] {u : State} (h : EventsGrow s t) (k : EventsGrow s u) :
    EventsGrow s (if c then t else u) := by
  split
  · exact h
  · exact k

theorem setSup_grows (w : Supervisor) : EventsGrow s (s.setSup w) := .of rfl rfl
theorem evalPermits_grows : EventsGrow s (evalPermits s) := by
  unfold evalPermits; dsimp only
  exact .ite (.of rfl rfl) (.pre (raise_grows _ _))
theorem tellAssignment_grows : EventsGrow s (tellAssignment s) := .of rfl rfl
theorem setPhase_grows (p : CallPhase) : EventsGrow s (setPhase p s) := .pre (raise_grows _ _)
theorem advancePhase_grows : EventsGrow s (advancePhase s) := by
  have a : ∀ u : State, EventsGrow u (advanceArriving u) := by
    intro u; unfold advanceArriving; exact .ite (.pre (setPhase_grows _)) .refl
  have b : ∀ u : State, EventsGrow u (advanceLettingGo u) := by
    intro u; unfold advanceLettingGo; exact .ite (setPhase_grows _) .refl
  exact (a s).trans (b _)
theorem beginLetGo_grows : EventsGrow s (beginLetGo s) := by
  unfold beginLetGo; exact .ite (setPhase_grows _) .refl
theorem settleAdoption_grows : EventsGrow s (settleAdoption s) := by
  have a : ∀ u : State, EventsGrow u (openAdopted u) := by
    intro u; unfold openAdopted; dsimp only
    exact .ite (.pre (raise_grows _ _)) .refl
  unfold settleAdoption; exact .ite (.pre (a _)) .refl
theorem dropAssigned_grows : EventsGrow s (dropAssigned l s) := by
  unfold dropAssigned
  exact .ite (.pre (raise_grows _ _)) .refl
theorem setView_grows (v : LineView) : EventsGrow s (setView l v s) := .of rfl rfl
theorem supNotice_grows : EventsGrow s (supNotice l s) := by
  unfold supNotice
  dsimp only
  refine EventsGrow.trans ?_ (advancePhase_grows.trans (settleAdoption_grows.trans evalPermits_grows))
  have hd (v : LineView) (c : Prop) [Decidable c] : EventsGrow s (if c then dropAssigned l (setView l v s) else setView l v s) :=
    .ite ((setView_grows _).trans dropAssigned_grows) (setView_grows _)
  exact .ite ((hd _ _).trans beginLetGo_grows) (hd _ _)
theorem supSurgeEnd_grows : EventsGrow s (supSurgeEnd l s) := (setView_grows _).trans evalPermits_grows
theorem gateStart_grows : EventsGrow s (gateStart l s) := .of rfl rfl
theorem reseed_grows : EventsGrow s (reseed l s) := .of rfl rfl
theorem tellCounters_grows (v : Bool) : EventsGrow s (tellCounters l v s) := .of rfl rfl
theorem tellSurge_grows (v : Bool) : EventsGrow s (tellSurge l v s) := .of rfl rfl
theorem lmuNotice_grows : EventsGrow s (lmuNotice l s) := by
  unfold lmuNotice; dsimp only; exact .ite (.of rfl rfl) (.of rfl rfl)
theorem signalCounters_grows : EventsGrow s (signalCounters l s) := by
  unfold signalCounters; dsimp only; exact .ite .refl (.of rfl rfl)
theorem surgeEnded_grows : EventsGrow s (surgeEnded l s) :=
  ((raise_grows _ _).trans supSurgeEnd_grows).trans (tellSurge_grows _)
theorem detNotice_grows : EventsGrow s (detNotice l s) := by
  unfold detNotice; dsimp only
  refine EventsGrow.trans ?_ signalCounters_grows
  exact .ite (.pre surgeEnded_grows) (.of rfl rfl)
theorem queueCommand_grows (i : Intent) (v : Bool) : EventsGrow s (queueCommand l i v s) := .of rfl rfl
theorem refreshIntent_grows (e : Bool) : EventsGrow s (refreshIntent l e s) := by
  unfold refreshIntent; dsimp only; split
  · exact .of rfl rfl
  · split <;> split <;> exact .of rfl rfl
theorem softZoneTest_grows : EventsGrow s (softZoneTest l s) := by
  unfold softZoneTest; dsimp only
  exact .ite .refl (.ite (.pre (refreshIntent_grows _)) (.of rfl rfl))
theorem drumNotice_grows (old : LineState) : EventsGrow s (drumNotice l old s) := by
  unfold drumNotice; dsimp only
  exact .ite (.ite (.trans (.pre softZoneTest_grows) (.of rfl rfl)) (.pre softZoneTest_grows)) (.ite (.of rfl rfl) .refl)
theorem regNotice_grows : EventsGrow s (regNotice l s) := by
  unfold regNotice; dsimp only
  exact .ite (.pre (raise_grows _ _)) (.of rfl rfl)

/-- A notice raises LINE_STATE at its end, and takes no event away (R60). -/
theorem notify_grows (old : LineState) : EventsGrow s (notify l old s) := by
  unfold notify; dsimp only
  refine EventsGrow.trans ?_ (raise_grows _ _)
  have h0 := (lmuNotice_grows (l := l) (s := s)).trans ((drumNotice_grows (l := l) old).trans (regNotice_grows (l := l)))
  exact .ite (h0.trans (.pre (detNotice_grows.trans supNotice_grows)))
    (.ite (h0.trans (.pre (supNotice_grows.trans detNotice_grows)))
      (h0.trans (detNotice_grows.trans supNotice_grows)))

theorem notify_raised (old : LineState) : Raised .lineState (.line l) s (notify l old s) := by
  have h : ∃ u : State, notify l old s = raise .lineState (.line l) u ∧ u.vessel.tx = s.vessel.tx := by
    have := (notify_grows (s := s) (l := l) old).2.2
    unfold notify at this ⊢
    dsimp only at this ⊢
    refine ⟨_, rfl, ?_⟩
    rwa [raise_tx] at this
  obtain ⟨u, hu, hx⟩ := h
  rw [hu]
  exact (raise_raised _ _).of_tx hx.symm

end Machine

end Sys2Proof
end

