-- ==== Sys2Proof/Laws/Call.lean ====
section
/-! SUPPORT. The law of the Supervisor's state-change notice: what it does to the call, to adoption and to the permits
(R132, R134 to R138, R146, R197). -/

namespace Sys2Proof.Machine

variable {s t u : State} {l : Line}

/-! ## The Supervisor's steps, each as what it leaves -/

theorem latched_eq_inFamily (st : LineState) : latched st = inFamily st := by cases st <;> rfl

theorem anyB_iff_heldFast (lines : LineSet) :
    (lines.anyB (fun _ a => a) && lines.allB fun m a => !a || latched (s.sup.view.get m).state) = true ↔ heldFast lines s := by
  simp only [Bool.and_eq_true, Lines.anyB_iff, Lines.allB_iff, heldFast, Bool.or_eq_true, Bool.not_eq_true', latched_eq_inFamily]
  refine and_congr_right fun _ => forall_congr' fun m => ?_
  cases lines.get m <;> simp

/-- Made Fast in an open call (R135). -/
theorem madeFast_iff (h : s.sup.call.phase ≠ .idle) : madeFast s.sup = true ↔ heldFast s.sup.call.assigned s := by
  rw [← anyB_iff_heldFast, madeFast]
  simp [CallRecord.isOpen, h]

/-- The permits re-evaluated (R136 to R138). -/
theorem evalPermits_sup : (evalPermits s).sup = { s.sup with
    rampPermit := rampCondition s.sup, departPermit := departPermitCondition s.sup } := by
  unfold evalPermits; dsimp only; split <;> rfl

/-- After a re-evaluation both permits are what their conditions give (R136, R137). -/
theorem evalPermits_hold : (evalPermits s).sup.rampPermit = rampCondition (evalPermits s).sup
    ∧ (evalPermits s).sup.departPermit = departPermitCondition (evalPermits s).sup := by
  rw [evalPermits_sup]
  unfold rampCondition departPermitCondition departCondition madeFast assignedFlagsClear
  exact ⟨rfl, rfl⟩

theorem evalPermits_raised (h : (evalPermits s).sup.rampPermit ≠ s.sup.rampPermit
    ∨ (evalPermits s).sup.departPermit ≠ s.sup.departPermit) : Raised .permit .berth s (evalPermits s) := by
  rw [evalPermits_sup] at h
  unfold evalPermits
  dsimp only
  split
  · rename_i hc
    simp only [Bool.and_eq_true, beq_iff_eq] at hc
    simp [hc.1, hc.2] at h
  · exact (raise_raised .permit .berth).of_tx rfl

/-- The phase after an event that can change Made Fast or the Depart condition (R132). -/
theorem advancePhase_spec :
    (advancePhase s).lmu = s.lmu
    ∧ (((s.sup.call.phase = .arriving ∧ madeFast s.sup = true)
        ∧ (advancePhase s).sup = { s.sup with call := { s.sup.call with
            phase := .moored, madeFastTime := some (s.sup.call.madeFastTime.getD (s.sup.call.timeMs / 1000)) } }
        ∧ Raised .call .berth s (advancePhase s))
      ∨ ((s.sup.call.phase = .lettingGo ∧ departCondition s.sup = true)
        ∧ (advancePhase s).sup = { s.sup with call := { s.sup.call with phase := .clear } }
        ∧ Raised .call .berth s (advancePhase s))
      ∨ (¬ (s.sup.call.phase = .arriving ∧ madeFast s.sup = true)
        ∧ ¬ (s.sup.call.phase = .lettingGo ∧ departCondition s.sup = true) ∧ (advancePhase s).sup = s.sup)) := by
  unfold advancePhase
  by_cases ha : s.sup.call.phase = .arriving ∧ madeFast s.sup = true
  · rw [show advanceArriving s = _ from if_pos (by simpa using ha)]
    exact ⟨rfl, .inl ⟨ha, rfl, (raise_raised .call .berth).of_tx rfl⟩⟩
  · rw [show advanceArriving s = s from if_neg (by simpa using ha)]
    by_cases hd : s.sup.call.phase = .lettingGo ∧ departCondition s.sup = true
    · rw [show advanceLettingGo s = _ from if_pos (by simpa using hd)]
      exact ⟨rfl, .inr (.inl ⟨hd, rfl, (raise_raised .call .berth).of_tx rfl⟩)⟩
    · rw [show advanceLettingGo s = s from if_neg (by simpa using hd)]
      exact ⟨rfl, .inr (.inr ⟨ha, hd, rfl⟩)⟩

/-- The end of adoption, and the adopted call with it (R146, R197). -/
theorem settleAdoption_spec :
    let ended := s.sup.adoptionComplete = false ∧ ∀ m, (s.sup.view.get m).state ≠ .adopting
    (¬ ended → settleAdoption s = s)
    ∧ (ended → (∃ m, latched (s.sup.view.get m).state = true) →
        (settleAdoption s).sup = { s.sup with
          adoptionComplete := true
          call := ⟨.moored, some 0, 0, s.sup.view.imap fun _ v => latched v.state, 0, s.sup.call.surgeCount, some 0⟩ }
        ∧ (∀ m, ((settleAdoption s).lmu.get m).assignedView = latched (s.sup.view.get m).state)
        ∧ Raised .call .berth s (settleAdoption s))
    ∧ (ended → (¬ ∃ m, latched (s.sup.view.get m).state = true) →
        (settleAdoption s).sup = { s.sup with adoptionComplete := true } ∧ (settleAdoption s).lmu = s.lmu) := by
  intro ended
  have ho : (!s.sup.adoptionComplete && s.sup.view.allB fun _ v => v.state != .adopting) = true ↔ ended := by
    simp [ended, Lines.allB_iff]
  have hh : (s.sup.view.imap (fun _ v => latched v.state)).anyB (fun _ a => a) = true
      ↔ ∃ m, latched (s.sup.view.get m).state = true := by
    simp [Lines.anyB_iff]
  refine ⟨fun h => ?_, fun h g => ?_, fun h g => ?_⟩
  · unfold settleAdoption; rw [if_neg (fun x => h (ho.1 x))]
  · unfold settleAdoption openAdopted
    rw [if_pos (ho.2 h)]
    dsimp only [setAdoption, State.setSup]
    rw [if_pos (hh.2 g)]
    exact ⟨rfl, fun m => by simp [tellAssignment, CallRecord.isOpen], (raise_raised .call .berth).of_tx rfl⟩
  · unfold settleAdoption openAdopted
    rw [if_pos (ho.2 h)]
    dsimp only [setAdoption, State.setSup]
    rw [if_neg (fun x => g (hh.1 x))]
    exact ⟨rfl, rfl⟩

/-- A MOORED call begins to let go (R132). -/
theorem beginLetGo_spec :
    (beginLetGo s).lmu = s.lmu
    ∧ ((s.sup.call.phase = .moored ∧ (beginLetGo s).sup = { s.sup with call := { s.sup.call with phase := .lettingGo } }
          ∧ Raised .call .berth s (beginLetGo s))
      ∨ (s.sup.call.phase ≠ .moored ∧ beginLetGo s = s)) := by
  unfold beginLetGo
  by_cases h : s.sup.call.phase = .moored
  · rw [if_pos h]; exact ⟨rfl, .inl ⟨h, rfl, (raise_raised .call .berth).of_tx rfl⟩⟩
  · rw [if_neg h]; exact ⟨rfl, .inr ⟨h, rfl⟩⟩

/-! ## The notice -/

/-- The conditions read the line view alone. -/
theorem heldFast_congr {x : LineSet} (h : t.sup.view = s.sup.view) : heldFast x t ↔ heldFast x s := by
  unfold heldFast; rw [h]
theorem departHolds_congr (h : t.sup.view = s.sup.view) : departHolds t ↔ departHolds s := by
  unfold departHolds; rw [h]

/-- What a notice leaves before the end of adoption is judged: the view, and the phase (R132). -/
theorem notice_phase (v : LineView) (lets : Prop) [Decidable lets]
    (hv : lets → v.state = .easing ∨ v.state = .unlatching ∨ v.state = .tripped) :
    let s0 := setView l v s
    let u := advancePhase (if lets then beginLetGo s0 else s0)
    let c := s.sup.call
    let letsGo := c.phase = .moored ∧ lets
    let made := c.phase = .arriving ∧ heldFast c.assigned s0
    let gone := c.phase = .lettingGo ∧ departHolds s0
    u.lmu = s.lmu ∧ u.sup = { s0.sup with call := u.sup.call } ∧ EventsGrow s u
    ∧ (letsGo → u.sup.call = { c with phase := .lettingGo } ∧ Raised .call .berth s u)
    ∧ (made → u.sup.call = { c with phase := .moored, madeFastTime := some (c.madeFastTime.getD (c.timeMs / 1000)) }
        ∧ Raised .call .berth s u)
    ∧ (gone → u.sup.call = { c with phase := .clear } ∧ Raised .call .berth s u)
    ∧ (¬ letsGo → ¬ made → ¬ gone → u.sup.call = c) := by
  intro s0 u c letsGo made gone
  have hm : ∀ w : State, w.sup.view = s0.sup.view → w.sup.call.assigned = c.assigned → w.sup.call.phase = .arriving →
      (madeFast w.sup = true ↔ heldFast c.assigned s0) := by
    intro w h1 h2 h3
    rw [madeFast_iff (by rw [h3]; decide), h2]
    exact heldFast_congr h1
  have hd : ∀ w : State, w.sup.view = s0.sup.view → (departCondition w.sup = true ↔ departHolds s0) := by
    intro w h1; rw [departCondition_iff]; exact departHolds_congr h1
  have hg : EventsGrow s u := by
    refine EventsGrow.trans ?_ advancePhase_grows
    exact .ite ((setView_grows _).trans beginLetGo_grows) (setView_grows _)
  have grown {r : State} {k : EventKind} (hr : s.vessel.tx = r.vessel.tx) (h : Raised k .berth r u) : Raised k .berth s u :=
    h.of_tx hr
  by_cases hl : letsGo
  · -- the call lets go, and the line just told of keeps the Depart condition away
    have hb := beginLetGo_spec (s := s0)
    obtain ⟨b1, ⟨-, b2, b3⟩ | ⟨b2, -⟩⟩ := hb
    swap
    · exact absurd hl.1 b2
    have hu : u = advancePhase (beginLetGo s0) := by show advancePhase (if lets then _ else _) = _; rw [if_pos hl.2]
    have hn : ¬ departHolds s0 := by
      intro h
      have := h l
      simp only [s0, setView, State.setSup_sup, Lines.get_set_same] at this
      rcases hv hl.2 with e | e | e <;> simp [e] at this
    obtain ⟨a1, ⟨⟨a2, -⟩, -⟩ | ⟨⟨-, a2⟩, -⟩ | ⟨-, -, a2⟩⟩ := advancePhase_spec (s := beginLetGo s0)
    · rw [b2] at a2; simp at a2
    · exact absurd ((hd _ (by rw [b2])).1 a2) hn
    · have e : u.sup = { s0.sup with call := { c with phase := .lettingGo } } := by rw [hu, a2, b2]; rfl
      have hr : Raised .call .berth s u := by
        rw [hu]; exact (b3.of_tx (r := s) rfl).grow advancePhase_grows
      refine ⟨by rw [hu, a1, b1]; rfl, by rw [e], hg, fun _ => ⟨by rw [e], hr⟩, ?_, ?_, ?_⟩
      · intro h; exact absurd (h.1.symm.trans hl.1) (by decide)
      · intro h; exact absurd (h.1.symm.trans hl.1) (by decide)
      · intro h; exact absurd hl h
  · have hx : ∃ r, (if lets then beginLetGo s0 else s0) = r ∧ r = s0 := by
      refine ⟨_, rfl, ?_⟩
      split
      · rename_i h
        have hb := beginLetGo_spec (s := s0)
        obtain ⟨-, ⟨b2, -⟩ | ⟨-, b2⟩⟩ := hb
        · exact absurd ⟨b2, h⟩ hl
        · exact b2
      · rfl
    obtain ⟨r, hr, rfl⟩ := hx
    have hu : u = advancePhase s0 := by show advancePhase (if lets then _ else _) = _; rw [hr]
    obtain ⟨a1, ha⟩ := advancePhase_spec (s := s0)
    have hmade : (s0.sup.call.phase = .arriving ∧ madeFast s0.sup = true) ↔ made :=
      and_congr_right fun h => hm s0 rfl rfl h
    have hgone : (s0.sup.call.phase = .lettingGo ∧ departCondition s0.sup = true) ↔ gone :=
      and_congr_right fun _ => hd s0 rfl
    rw [hmade, hgone] at ha
    rw [← hu] at a1 ha
    refine ⟨by rw [a1]; rfl, ?_, hg, fun h => absurd h hl, ?_, ?_, ?_⟩
    · rcases ha with ⟨-, e, -⟩ | ⟨-, e, -⟩ | ⟨-, -, e⟩ <;> rw [e]
    · intro h
      rcases ha with ⟨-, e, r⟩ | ⟨⟨e, -⟩, -⟩ | ⟨e, -⟩
      · exact ⟨by rw [e]; rfl, r.of_tx rfl⟩
      · exact absurd (h.1.symm.trans e) (by decide)
      · exact absurd h e
    · intro h
      rcases ha with ⟨⟨e, -⟩, -⟩ | ⟨-, e, r⟩ | ⟨-, e, -⟩
      · exact absurd (h.1.symm.trans e) (by decide)
      · exact ⟨by rw [e]; rfl, r.of_tx rfl⟩
      · exact absurd h e
    · intro _ h1 h2
      rcases ha with ⟨e, -⟩ | ⟨e, -⟩ | ⟨-, -, e⟩
      · exact absurd e h1
      · exact absurd e h2
      · rw [e]; rfl

/-- What the end of adoption and the permits leave after the phase (R136 to R138, R146, R197). -/
theorem settled_spec :
    let t := evalPermits (settleAdoption u)
    let over_ := u.sup.adoptionComplete = false ∧ ∀ m, (u.sup.view.get m).state ≠ .adopting
    let some_ := ∃ m, latched (u.sup.view.get m).state = true
    t.sup.view = u.sup.view ∧ EventsGrow u t ∧ t.sup.call.surgeCount = u.sup.call.surgeCount
    ∧ (t.sup.adoptionComplete = true ↔ u.sup.adoptionComplete = true ∨ over_)
    ∧ (over_ → some_ →
        t.sup.call = ⟨.moored, some 0, 0, u.sup.view.imap fun _ v => latched v.state, 0, u.sup.call.surgeCount, some 0⟩
        ∧ (∀ m, (t.lmu.get m).assignedView = latched (u.sup.view.get m).state) ∧ Raised .call .berth u t)
    ∧ (¬ (over_ ∧ some_) → t.sup.call = u.sup.call ∧ t.lmu = u.lmu)
    ∧ t.sup.rampPermit = rampCondition t.sup ∧ t.sup.departPermit = departPermitCondition t.sup
    ∧ (t.sup.rampPermit ≠ u.sup.rampPermit ∨ t.sup.departPermit ≠ u.sup.departPermit → Raised .permit .berth u t) := by
  intro t over_ some_
  obtain ⟨q1, q2, q3⟩ := settleAdoption_spec (s := u)
  have wg := settleAdoption_grows (s := u)
  have wv := settleAdoption_view (s := u)
  have e1 := evalPermits_sup (s := settleAdoption u)
  have e2 := evalPermits_grows (s := settleAdoption u)
  have e3 := evalPermits_raised (s := settleAdoption u)
  have e4 := evalPermits_lmu (s := settleAdoption u)
  have e5 := evalPermits_hold (s := settleAdoption u)
  change t.sup = _ at e1
  change EventsGrow _ t at e2
  change t.lmu = _ at e4
  change t.sup.rampPermit = rampCondition t.sup ∧ t.sup.departPermit = departPermitCondition t.sup at e5
  change (t.sup.rampPermit ≠ _ ∨ t.sup.departPermit ≠ _ → Raised .permit .berth _ t) at e3
  clear_value t
  generalize hw : settleAdoption u = w at *
  have tc : t.sup.call = w.sup.call := by rw [e1]
  have ta : t.sup.adoptionComplete = w.sup.adoptionComplete := by rw [e1]
  have tv : t.sup.view = w.sup.view := by rw [e1]
  have key : w.sup.call.surgeCount = u.sup.call.surgeCount ∧ w.sup.rampPermit = u.sup.rampPermit
      ∧ w.sup.departPermit = u.sup.departPermit
      ∧ (w.sup.adoptionComplete = true ↔ u.sup.adoptionComplete = true ∨ over_)
      ∧ (¬ (over_ ∧ some_) → w.sup.call = u.sup.call ∧ w.lmu = u.lmu) := by
    by_cases e : over_
    · by_cases x : some_
      · rw [(q2 e x).1]; exact ⟨rfl, rfl, rfl, by simp [e], fun z => absurd ⟨e, x⟩ z⟩
      · rw [(q3 e x).1, (q3 e x).2]; exact ⟨rfl, rfl, rfl, by simp [e], fun _ => ⟨rfl, rfl⟩⟩
    · rw [q1 e]; exact ⟨rfl, rfl, rfl, by simp [e], fun _ => ⟨rfl, rfl⟩⟩
  obtain ⟨k1, k2, k3, k4, k5⟩ := key
  refine ⟨tv.trans wv, wg.trans e2, by rw [tc, k1], by rw [ta, k4], fun e x => ?_, fun z => ?_, e5.1, e5.2, fun z => ?_⟩
  · obtain ⟨y1, y2, y3⟩ := q2 e x
    refine ⟨by rw [tc, y1], fun m => by rw [e4, y2], y3.grow e2⟩
  · rw [tc, e4]; exact k5 z
  · rw [← k2, ← k3] at z
    exact (e3 z).of_tx wg.2.2.symm

/-- The steps of a notice to a state other than DISABLED, in their order. -/
theorem supNotice_eq (h : s.stateOf l ≠ .disabled) :
    ∃ (v : LineView) (lets : Prop) (_ : Decidable lets), v.state = s.stateOf l
      ∧ (lets ↔ ((s.sup.view.get l).state ≠ s.stateOf l
          ∧ (s.stateOf l = .easing ∨ s.stateOf l = .unlatching ∨ s.stateOf l = .tripped))
          ∧ s.sup.call.assigned.get l = true)
      ∧ supNotice l s = evalPermits (settleAdoption (advancePhase
          (if lets then beginLetGo (setView l v s) else setView l v s))) := by
  let lets := ((s.sup.view.get l).state ≠ s.stateOf l
    ∧ (s.stateOf l = .easing ∨ s.stateOf l = .unlatching ∨ s.stateOf l = .tripped)) ∧ s.sup.call.assigned.get l = true
  refine ⟨(supNotice l s).sup.view.get l, lets, inferInstance, by rw [supNotice_view], Iff.rfl, ?_⟩
  have hd : ((s.lcu.get l).state == .disabled) = false := by simpa [State.stateOf] using h
  have hl : ∀ v, (((s.sup.view.get l).state != (s.lcu.get l).state
      && ((s.lcu.get l).state == .easing || (s.lcu.get l).state == .unlatching || (s.lcu.get l).state == .tripped)
      && (setView l v s).sup.call.assigned.get l) = true) = lets := by
    intro v; simp [lets, State.stateOf, setView, and_assoc, or_assoc]
  rw [supNotice_view]
  unfold supNotice
  dsimp only
  simp only [State.stateOf, hd, Bool.not_false, Bool.true_and, Bool.false_eq_true, if_false, hl]

/-- The call after a state-change notice to a state other than DISABLED (R132, R135 to R138, R146, R197). -/
theorem supNotice_follows (h : s.stateOf l ≠ .disabled) :
    CallFollows l s (supNotice l s) ∧ (supNotice l s).sup.call.surgeCount = s.sup.call.surgeCount := by
  obtain ⟨v, lets, _, hvs, hlets, ht⟩ := supNotice_eq (s := s) (l := l) h
  obtain ⟨p1, p2, p3, p4, p5, p6, p7⟩ := notice_phase (s := s) (l := l) v lets (by rw [hvs]; exact fun x => (hlets.1 x).1.2)
  rw [ht]
  generalize hs0 : setView l v s = s0 at *
  generalize hu : advancePhase (if lets then beginLetGo s0 else s0) = u at *
  have hview : u.sup.view = s0.sup.view := by rw [p2]
  have hadopt : u.sup.adoptionComplete = s.sup.adoptionComplete := by rw [p2, ← hs0]; rfl
  have hperm : u.sup.rampPermit = s.sup.rampPermit ∧ u.sup.departPermit = s.sup.departPermit := by
    rw [p2, ← hs0]; exact ⟨rfl, rfl⟩
  have hsur : u.sup.call.surgeCount = s.sup.call.surgeCount := by
    by_cases h1 : s.sup.call.phase = .moored ∧ lets
    · rw [(p4 h1).1]
    · by_cases h2 : s.sup.call.phase = .arriving ∧ heldFast s.sup.call.assigned s0
      · rw [(p5 h2).1]
      · by_cases h3 : s.sup.call.phase = .lettingGo ∧ departHolds s0
        · rw [(p6 h3).1]
        · rw [p7 h1 h2 h3]
  obtain ⟨r1, r2, r3, r4, r5, r6, r7, r8, r9⟩ := settled_spec (u := u)
  generalize evalPermits (settleAdoption u) = t at *
  have tv : t.sup.view = s0.sup.view := r1.trans hview
  have hst : t.sup.call.surgeCount = s.sup.call.surgeCount := r3.trans hsur
  have hnew : (t.sup.view.get l).state = s.stateOf l := by rw [tv, ← hs0]; simp [setView, hvs]
  refine ⟨⟨?_, ?_, r7, r8, fun hne => ?_⟩, hst⟩
  · rw [r4, hadopt, r1]
    cases s.sup.adoptionComplete <;> simp
  · rw [hst, hnew]
    have hopens : (s.sup.adoptionComplete = false ∧ (∀ m, (t.sup.view.get m).state ≠ .adopting)
          ∧ ∃ m, inFamily (t.sup.view.get m).state = true)
        ↔ (u.sup.adoptionComplete = false ∧ ∀ m, (u.sup.view.get m).state ≠ .adopting)
          ∧ ∃ m, latched (u.sup.view.get m).state = true := by
      simp only [r1, hadopt, latched_eq_inFamily, and_assoc]
    have hlet : (s.sup.call.phase = .moored ∧ s.sup.call.assigned.get l = true
          ∧ (s.sup.view.get l).state ≠ s.stateOf l
          ∧ (s.stateOf l = .easing ∨ s.stateOf l = .unlatching ∨ s.stateOf l = .tripped))
        ↔ s.sup.call.phase = .moored ∧ lets := by
      rw [hlets]; exact ⟨fun x => ⟨x.1, x.2.2, x.2.1⟩, fun x => ⟨x.1, x.2.2, x.2.1⟩⟩
    have hmade := heldFast_congr (x := s.sup.call.assigned) tv
    have hgone := departHolds_congr tv
    dsimp only
    rw [hopens, hlet, hmade, hgone]
    refine ⟨fun ho => ?_, fun ho m => ?_, fun ho hl => ?_, fun ho hl => ?_, fun ho hl => ?_, fun ho h1 h2 h3 => ?_⟩
    · obtain ⟨y1, y2, y3⟩ := r5 ho.1 ho.2
      refine ⟨?_, y3.of_tx p3.2.2.symm, fun m => ?_⟩
      · rw [y1, hsur, r1]; simp only [latched_eq_inFamily]
      · rw [y2 m, r1, latched_eq_inFamily]
    · rw [(r6 ho).2, p1]
    · exact ⟨(r6 ho).1.trans (p4 hl).1, (p4 hl).2.grow r2⟩
    · exact ⟨(r6 ho).1.trans (p5 hl).1, (p5 hl).2.grow r2⟩
    · exact ⟨(r6 ho).1.trans (p6 hl).1, (p6 hl).2.grow r2⟩
    · exact (r6 ho).1.trans (p7 h1 h2 h3)
  · rw [← hperm.1, ← hperm.2] at hne
    exact (r9 hne).of_tx p3.2.2.symm

/-! ## Around a notice -/

/-- The call, adoption, the views that the call's conditions read, and the assignments stay; events only grow, and a change of a
permit is raised. -/
structure CallAside (s u : State) : Prop where
  call     : u.sup.call = s.sup.call
  adoption : u.sup.adoptionComplete = s.sup.adoptionComplete
  views    : ∀ m, (u.sup.view.get m).state = (s.sup.view.get m).state
               ∧ (u.sup.view.get m).latchIntent = (s.sup.view.get m).latchIntent
               ∧ (u.sup.view.get m).lastLatch = (s.sup.view.get m).lastLatch
  assigned : ∀ m, (u.lmu.get m).assignedView = (s.lmu.get m).assignedView
  grows    : EventsGrow s u
  permit   : u.sup.rampPermit ≠ s.sup.rampPermit ∨ u.sup.departPermit ≠ s.sup.departPermit → Raised .permit .berth s u

theorem CallAside.of_sup (h : u.sup = s.sup) (ha : ∀ m, (u.lmu.get m).assignedView = (s.lmu.get m).assignedView)
    (hg : EventsGrow s u) : CallAside s u :=
  ⟨by rw [h], by rw [h], by rw [h]; exact fun _ => ⟨rfl, rfl, rfl⟩, ha, hg, by rw [h]; simp⟩

theorem CallAside.trans (h : CallAside s t) (k : CallAside t u) : CallAside s u where
  call := k.call.trans h.call
  adoption := k.adoption.trans h.adoption
  views m := ⟨(k.views m).1.trans (h.views m).1, (k.views m).2.1.trans (h.views m).2.1, (k.views m).2.2.trans (h.views m).2.2⟩
  assigned m := (k.assigned m).trans (h.assigned m)
  grows := h.grows.trans k.grows
  permit z := by
    by_cases hx : t.sup.rampPermit ≠ s.sup.rampPermit ∨ t.sup.departPermit ≠ s.sup.departPermit
    · exact (h.permit hx).grow k.grows
    · rw [not_or, not_not, not_not] at hx
      rw [← hx.1, ← hx.2] at z
      exact (k.permit z).of_tx h.grows.2.2.symm

theorem CallAside.departs (h : CallAside s u) : departHolds u ↔ departHolds s := by
  unfold departHolds
  refine forall_congr' fun m => ?_
  obtain ⟨h1, h2, h3⟩ := h.views m
  dsimp only
  rw [h1, h2, h3]

theorem CallAside.fast (h : CallAside s u) (x : LineSet) : heldFast x u ↔ heldFast x s := by
  unfold heldFast
  simp only [fun m => (h.views m).1]

/-- A notice after steps that leave the call aside. -/
theorem CallFollows.before (h : CallAside s u) (k : CallFollows l u t) (hg : EventsGrow u t) : CallFollows l s t := by
  obtain ⟨k1, k2, k3, k4, k5⟩ := k
  have tx := h.grows.2.2.symm
  refine ⟨by rw [k1, h.adoption], ?_, k3, k4, fun z => ?_⟩
  · dsimp only at k2 ⊢
    simp only [h.call, h.adoption, (h.views l).1, h.assigned] at k2
    obtain ⟨a, b, c, d, e, f⟩ := k2
    exact ⟨fun z => ⟨(a z).1, (a z).2.1.of_tx tx, (a z).2.2⟩, b, fun y z => ⟨(c y z).1, (c y z).2.of_tx tx⟩,
      fun y z => ⟨(d y z).1, (d y z).2.of_tx tx⟩, fun y z => ⟨(e y z).1, (e y z).2.of_tx tx⟩, f⟩
  · by_cases hx : u.sup.rampPermit ≠ s.sup.rampPermit ∨ u.sup.departPermit ≠ s.sup.departPermit
    · exact (h.permit hx).grow hg
    · rw [not_or, not_not, not_not] at hx
      rw [← hx.1, ← hx.2] at z
      exact (k5 z).of_tx tx

/-- A notice before steps that leave the call aside and the permits as their conditions give. -/
theorem CallFollows.after (k : CallFollows l s t) (h : CallAside t u) (hx' : s.vessel.tx = t.vessel.tx)
    (hp : u.sup.rampPermit = rampCondition u.sup ∧ u.sup.departPermit = departPermitCondition u.sup) : CallFollows l s u := by
  obtain ⟨k1, k2, k3, k4, k5⟩ := k
  have hv : ∀ m, (u.sup.view.get m).state = (t.sup.view.get m).state := fun m => (h.views m).1
  have hm : (u.sup.view.imap fun _ v => inFamily v.state) = t.sup.view.imap fun _ v => inFamily v.state :=
    Lines.eq_of_get fun m => by simp [hv]
  refine ⟨by rw [h.adoption]; simp only [hv]; exact k1, ?_, hp.1, hp.2, fun z => ?_⟩
  · dsimp only at k2 ⊢
    simp only [h.call, hv, h.assigned, hm, h.fast, h.departs]
    obtain ⟨a, b, c, d, e, f⟩ := k2
    exact ⟨fun z => ⟨(a z).1, (a z).2.1.grow h.grows, (a z).2.2⟩, b, fun y z => ⟨(c y z).1, (c y z).2.grow h.grows⟩,
      fun y z => ⟨(d y z).1, (d y z).2.grow h.grows⟩, fun y z => ⟨(e y z).1, (e y z).2.grow h.grows⟩, f⟩
  · by_cases hx : t.sup.rampPermit ≠ s.sup.rampPermit ∨ t.sup.departPermit ≠ s.sup.departPermit
    · exact (k5 hx).grow h.grows
    · rw [not_or, not_not, not_not] at hx
      rw [← hx.1, ← hx.2] at z
      exact (h.permit z).of_tx hx'

end Sys2Proof.Machine
end

