-- ==== Sys2Proof/Laws/Enter.lean ====
section
/-! SUPPORT. The law of `enter` and `changeLine`: what the line's channel, the drive queue, the views and the rest hold after an
entry to a line state (R60 to R64). -/

namespace Sys2Proof.Machine

variable {s t : State} {l : Line}

/-- What a notice of a state other than DISABLED leaves alone besides the frame: the LCU channels and the bus. -/
theorem notify_lcu_bus (old : LineState) (h : s.stateOf l ≠ .disabled) :
    (notify l old s).lcu = s.lcu ∧ (notify l old s).bus = s.bus := by
  have hl : ∀ u : State, (lmuNotice l u).lcu = u.lcu ∧ (lmuNotice l u).bus = u.bus := by
    intro u; unfold lmuNotice gateStart; dsimp only; split <;> exact ⟨rfl, rfl⟩
  have hst : (lmuNotice l s).stateOf l ≠ .disabled := by
    unfold State.stateOf at h ⊢; rwa [(hl s).1]
  have hd : (drumNotice l old (lmuNotice l s)).lcu = s.lcu ∧ (drumNotice l old (lmuNotice l s)).bus = s.bus := by
    unfold drumNotice; dsimp only; simp only [hst, decide_false, Bool.false_and, Bool.false_eq_true, if_false]
    split
    · exact hl s
    · exact hl s
  have hr : ∀ u : State, (regNotice l u).lcu = u.lcu ∧ (regNotice l u).bus = u.bus := by
    intro u; unfold regNotice; dsimp only; split <;> exact ⟨rfl, rfl⟩
  have hs : ∀ u : State, (supNotice l u).lcu = u.lcu ∧ (supNotice l u).bus = u.bus :=
    fun u => ⟨machinery_lcu supNotice_machinery, machinery_bus supNotice_machinery⟩
  have he : ∀ u : State, (surgeEnded l u).lcu = u.lcu ∧ (surgeEnded l u).bus = u.bus :=
    fun u => ⟨(machinery_lcu (s := raise .surge (.line l) u) supSurgeEnd_machinery :),
      (machinery_bus (s := raise .surge (.line l) u) supSurgeEnd_machinery :)⟩
  have hc : ∀ u : State, (signalCounters l u).lcu = u.lcu ∧ (signalCounters l u).bus = u.bus := by
    intro u; unfold signalCounters; dsimp only; split <;> exact ⟨rfl, rfl⟩
  have hn : ∀ u : State, (detNotice l u).lcu = u.lcu ∧ (detNotice l u).bus = u.bus := by
    intro u; unfold detNotice; dsimp only
    split
    · exact ⟨(hc _).1.trans (he _).1, (hc _).2.trans (he _).2⟩
    · exact ⟨(hc _).1, (hc _).2⟩
  have h0 : ∀ u : State, u.lcu = (regNotice l (drumNotice l old (lmuNotice l s))).lcu ∧
      u.bus = (regNotice l (drumNotice l old (lmuNotice l s))).bus → u.lcu = s.lcu ∧ u.bus = s.bus :=
    fun u hu => ⟨hu.1.trans ((hr _).1.trans hd.1), hu.2.trans ((hr _).2.trans hd.2)⟩
  unfold notify
  dsimp only
  rw [raise_lcu, raise_bus]
  split
  · exact h0 _ ⟨(hs _).1.trans (hn _).1, (hs _).2.trans (hn _).2⟩
  · split
    · exact h0 _ ⟨(hn _).1.trans (hs _).1, (hn _).2.trans (hs _).2⟩
    · exact h0 _ ⟨(hs _).1.trans (hn _).1, (hs _).2.trans (hn _).2⟩

/-! ## The views after a notice -/

@[simp] theorem surgeEnded_machinery : (surgeEnded l s).machinery = s.machinery := by simp [surgeEnded, tellSurge]

theorem surgeEnded_det : (surgeEnded l s).det = s.det := machinery_det surgeEnded_machinery

theorem detNotice_reg : (detNotice l s).reg = s.reg := by
  have hc : ∀ u : State, (signalCounters l u).reg = u.reg := by
    intro u; unfold signalCounters; dsimp only; split <;> rfl
  unfold detNotice; dsimp only; rw [hc]; split
  · exact (machinery_reg surgeEnded_machinery :)
  · rfl

theorem detNotice_detView : ((detNotice l s).det.get l).stateView = s.stateOf l := by
  have hc : ∀ u : State, ((signalCounters l u).det.get l).stateView = (u.det.get l).stateView := by
    intro u; unfold signalCounters tellCounters; dsimp only; split <;> simp
  unfold detNotice; dsimp only; rw [hc]
  split <;> (try rw [surgeEnded_det]) <;> simp [DetectorChannel.noticed]

theorem detNotice_lmuView (m : Line) : ((detNotice l s).lmu.get m).stateView = (s.lmu.get m).stateView := by
  have hc : ∀ u : State, ((signalCounters l u).lmu.get m).stateView = (u.lmu.get m).stateView := by
    intro u; unfold signalCounters tellCounters; dsimp only; split
    · rfl
    · by_cases h : m = l
      · subst h; simp [LmuChannel.reclassed]
      · simp [h]
  have he : ∀ u : State, ((surgeEnded l u).lmu.get m).stateView = (u.lmu.get m).stateView := by
    intro u
    have h0 : ((supSurgeEnd l (raise .surge (.line l) u)).lmu.get m).stateView = (u.lmu.get m).stateView := by
      simp [supSurgeEnd, evalPermits_lmu, setView]
    unfold surgeEnded tellSurge
    by_cases h : m = l
    · subst h; simpa [LmuChannel.reclassed] using h0
    · simpa [h] using h0
  unfold detNotice; dsimp only; rw [hc]; split
  · rw [he]; rfl
  · rfl

theorem detNotice_supView : ((detNotice l s).sup.view.get l).state = (s.sup.view.get l).state := by
  have hc : ∀ u : State, (signalCounters l u).sup = u.sup := by
    intro u; unfold signalCounters; dsimp only; split <;> rfl
  unfold detNotice; dsimp only; rw [hc]
  split
  · show ((supSurgeEnd l _).sup.view.get l).state = _
    unfold supSurgeEnd
    rw [evalPermits_view]
    simp [setView]
  · rfl

theorem lmuView_of_items {u v : State} {m : Line} (h : u.lmuItems m = v.lmuItems m) :
    (u.lmu.get m).stateView = (v.lmu.get m).stateView := (congrArg LmuChannel.stateView h :)

theorem lmuNotice_view : ((lmuNotice l s).lmu.get l).stateView = s.stateOf l := by
  have h : ∀ c : LmuChannel, ∀ p, (c.noticed p (s.stateOf l)).stateView = s.stateOf l := by
    intro c p; unfold LmuChannel.noticed; dsimp only; split <;> rfl
  have g : ∀ c : LmuChannel, ∀ p, (c.gateStarted p).stateView = c.stateView := by
    intro c p; unfold LmuChannel.gateStarted; split <;> rfl
  unfold lmuNotice gateStart; dsimp only
  split <;> simp [h, g]

theorem drumNotice_views (old : LineState) (h : s.stateOf l ≠ .disabled) :
    (drumNotice l old s).lmu = s.lmu ∧ (drumNotice l old s).stateOf l = s.stateOf l := by
  unfold drumNotice; dsimp only; simp only [h, decide_false, Bool.false_and, Bool.false_eq_true, if_false]
  split <;> exact ⟨rfl, rfl⟩

theorem regNotice_view : ((regNotice l s).reg.get l).stateView = s.stateOf l := by
  unfold regNotice; dsimp only; split <;> simp

/-- After a notice of a state other than DISABLED every block holds the state (R60). -/
theorem notify_views (old : LineState) (h : s.stateOf l ≠ .disabled) :
    let u := notify l old s
    (u.lmu.get l).stateView = s.stateOf l ∧ (u.det.get l).stateView = s.stateOf l
      ∧ (u.reg.get l).stateView = s.stateOf l ∧ (u.sup.view.get l).state = s.stateOf l := by
  have hl : (lmuNotice l s).stateOf l = s.stateOf l := by
    unfold lmuNotice gateStart; dsimp only; split <;> simp
  have hd := drumNotice_views (s := lmuNotice l s) old (by rw [hl]; exact h)
  let v := regNotice l (drumNotice l old (lmuNotice l s))
  have hv : v.stateOf l = s.stateOf l := by
    show (regNotice l _).stateOf l = _
    unfold regNotice; dsimp only
    split <;> simp [hd.2, hl]
  have vl : (v.lmu.get l).stateView = s.stateOf l := by
    have : v.lmu = (lmuNotice l s).lmu := by
      show (regNotice l _).lmu = _
      unfold regNotice; dsimp only; split <;> exact hd.1
    rw [this, lmuNotice_view]
  have vr : (v.reg.get l).stateView = s.stateOf l := by
    show ((regNotice l _).reg.get l).stateView = _
    rw [regNotice_view, hd.2, hl]
  have stS : ∀ u : State, (supNotice l u).stateOf l = u.stateOf l := fun u => by
    unfold State.stateOf; rw [machinery_lcu (supNotice_machinery (s := u))]
  have stD : ∀ u : State, u.stateOf l ≠ .disabled → (detNotice l u).stateOf l = u.stateOf l := by
    intro u _
    have hc : ∀ w : State, (signalCounters l w).lcu = w.lcu := by
      intro w; unfold signalCounters; dsimp only; split <;> rfl
    unfold State.stateOf detNotice; dsimp only; rw [hc]; split
    · exact congrArg (fun x : Lines LcuChannel => (x.get l).state) (machinery_lcu surgeEnded_machinery :)
    · rfl
  have sv : ∀ u : State, ((supNotice l u).sup.view.get l).state = u.stateOf l := fun u => by rw [supNotice_view]
  have key : ∀ w : State, w.lmu = v.lmu → w.reg = v.reg → w.stateOf l = v.stateOf l →
      (let u := supNotice l (detNotice l w)
       (u.lmu.get l).stateView = s.stateOf l ∧ (u.det.get l).stateView = s.stateOf l
        ∧ (u.reg.get l).stateView = s.stateOf l ∧ (u.sup.view.get l).state = s.stateOf l) := by
    intro w e1 e2 e3
    have e3' : w.stateOf l ≠ .disabled := by rw [e3, hv]; exact h
    refine ⟨?_, ?_, ?_, ?_⟩
    · rw [lmuView_of_items (supNotice_lmuItems l), detNotice_lmuView, e1, vl]
    · rw [machinery_det supNotice_machinery, detNotice_detView, e3, hv]
    · rw [machinery_reg supNotice_machinery, detNotice_reg, e2, vr]
    · rw [sv, stD _ e3', e3, hv]
  have key' : ∀ w : State, w.lmu = v.lmu → w.reg = v.reg → w.stateOf l = v.stateOf l →
      (let u := detNotice l (supNotice l w)
       (u.lmu.get l).stateView = s.stateOf l ∧ (u.det.get l).stateView = s.stateOf l
        ∧ (u.reg.get l).stateView = s.stateOf l ∧ (u.sup.view.get l).state = s.stateOf l) := by
    intro w e1 e2 e3
    refine ⟨?_, ?_, ?_, ?_⟩
    · rw [detNotice_lmuView, lmuView_of_items (supNotice_lmuItems l), e1, vl]
    · rw [detNotice_detView, stS, e3, hv]
    · rw [detNotice_reg, machinery_reg supNotice_machinery, e2, vr]
    · rw [detNotice_supView, sv, e3, hv]
  unfold notify
  dsimp only
  rw [raise_lmu, raise_det, raise_reg, raise_sup]
  split
  · exact key _ rfl rfl rfl
  · split
    · exact key' _ rfl rfl rfl
    · exact key _ rfl rfl rfl

/-! ## The call, the rate class and the detector after a notice -/

theorem lmuNotice_aside : CallAside s (lmuNotice l s) := by
  have hn : ∀ (c : LmuChannel) p n, (c.noticed p n).assignedView = c.assignedView := by
    intro c p n; unfold LmuChannel.noticed LmuChannel.reclassed; dsimp only; split <;> rfl
  have hg : ∀ (c : LmuChannel) p, (c.gateStarted p).assignedView = c.assignedView := by
    intro c p; unfold LmuChannel.gateStarted; split <;> rfl
  have hs : (lmuNotice l s).sup = s.sup := by unfold lmuNotice gateStart; dsimp only; split <;> rfl
  refine .of_sup hs (fun m => ?_) lmuNotice_grows
  unfold lmuNotice gateStart
  dsimp only
  by_cases h : m = l
  · subst h; split <;> simp [hn, hg]
  · split <;> simp [h]

theorem drumNotice_aside (old : LineState) (h : s.stateOf l ≠ .disabled) : CallAside s (drumNotice l old s) := by
  have hs : (drumNotice l old s).sup = s.sup := by
    unfold drumNotice; dsimp only; simp only [h, decide_false, Bool.false_and, Bool.false_eq_true, if_false]
    split <;> rfl
  exact .of_sup hs (fun m => by rw [(drumNotice_views old h).1]) (drumNotice_grows old)

theorem regNotice_aside : CallAside s (regNotice l s) := by
  refine .of_sup ?_ (fun m => ?_) regNotice_grows <;> (unfold regNotice; dsimp only; split <;> rfl)

theorem tellSurge_aside (v : Bool) : CallAside s (tellSurge l v s) := by
  refine .of_sup rfl (fun m => ?_) (tellSurge_grows v)
  by_cases h : m = l
  · subst h; simp [tellSurge, LmuChannel.reclassed]
  · simp [tellSurge, h]

theorem signalCounters_aside : CallAside s (signalCounters l s) := by
  unfold signalCounters tellCounters; dsimp only; split
  · exact .of_sup rfl (fun _ => rfl) .refl
  · exact .of_sup rfl (fun m => by by_cases h : m = l <;> simp [LmuChannel.reclassed, h]) (.of rfl rfl)

/-- A surge end leaves the call aside, the permits as their conditions give (R38, R138). -/
theorem supSurgeEnd_aside : CallAside s (supSurgeEnd l s) where
  call := by unfold supSurgeEnd; rw [evalPermits_sup]; rfl
  adoption := by unfold supSurgeEnd; rw [evalPermits_sup]; rfl
  views m := by
    unfold supSurgeEnd
    rw [evalPermits_view]
    by_cases h : m = l
    · subst h; simp [setView]
    · simp [setView, h]
  assigned m := by unfold supSurgeEnd; rw [evalPermits_lmu]; rfl
  grows := supSurgeEnd_grows
  permit z := (evalPermits_raised z).of_tx rfl

/-- A notice at the Detector: aside from the call, and the permits untouched or as their conditions give (R27, R38). -/
theorem detNotice_aside : CallAside s (detNotice l s)
    ∧ ((detNotice l s).sup = s.sup ∨ ((detNotice l s).sup.rampPermit = rampCondition (detNotice l s).sup
        ∧ (detNotice l s).sup.departPermit = departPermitCondition (detNotice l s).sup)) := by
  have hc : ∀ u : State, (signalCounters l u).sup = u.sup := by
    intro u; unfold signalCounters; dsimp only; split <;> rfl
  have hd : ∀ c, CallAside s (s.setDet l c) := fun c => .of_sup rfl (fun _ => rfl) (.of rfl rfl)
  unfold detNotice
  dsimp only
  rw [hc]
  split
  · have he : ∀ u : State, CallAside u (surgeEnded l u) := by
      intro u
      have h1 : CallAside u (raise .surge (.line l) u) := .of_sup rfl (fun _ => rfl) (raise_grows _ _)
      have h2 := supSurgeEnd_aside (s := raise .surge (.line l) u) (l := l)
      have h3 := tellSurge_aside (s := supSurgeEnd l (raise .surge (.line l) u)) (l := l) false
      unfold surgeEnded
      exact (h1.trans h2).trans h3
    have hp : ∀ u : State, (surgeEnded l u).sup.rampPermit = rampCondition (surgeEnded l u).sup
        ∧ (surgeEnded l u).sup.departPermit = departPermitCondition (surgeEnded l u).sup := by
      intro u
      unfold surgeEnded tellSurge supSurgeEnd
      rw [State.setLmu_sup]
      exact evalPermits_hold
    exact ⟨((hd _).trans (he _)).trans signalCounters_aside, .inr (hp _)⟩
  · exact ⟨(hd _).trans signalCounters_aside, .inl rfl⟩

/-- A notice's order: the LMU, the Drum Counter and the Render Regulator, then the Detector and the Supervisor in either order. -/
theorem notify_cases (old : LineState) : ∃ w : State,
    (w = regNotice l (drumNotice l old (lmuNotice l s)) ∨ w = (regNotice l (drumNotice l old (lmuNotice l s))).drawn)
    ∧ (notify l old s = raise .lineState (.line l) (supNotice l (detNotice l w))
      ∨ notify l old s = raise .lineState (.line l) (detNotice l (supNotice l w))) := by
  unfold notify
  dsimp only
  split
  · exact ⟨_, .inr rfl, .inl rfl⟩
  · split
    · exact ⟨_, .inr rfl, .inr rfl⟩
    · exact ⟨_, .inl rfl, .inl rfl⟩

/-- What stands before the Detector and the Supervisor take a notice. -/
theorem notify_first (old : LineState) (h : s.stateOf l ≠ .disabled) {w : State}
    (hw : w = regNotice l (drumNotice l old (lmuNotice l s)) ∨ w = (regNotice l (drumNotice l old (lmuNotice l s))).drawn) :
    CallAside s w ∧ w.lcu = s.lcu ∧ w.det = s.det ∧ w.lmu = (lmuNotice l s).lmu := by
  have hl : (lmuNotice l s).stateOf l = s.stateOf l := by unfold lmuNotice gateStart; dsimp only; split <;> simp
  have hm : (lmuNotice l s).lcu = s.lcu ∧ (lmuNotice l s).det = s.det := by
    unfold lmuNotice gateStart; dsimp only; split <;> exact ⟨rfl, rfl⟩
  have hd : (drumNotice l old (lmuNotice l s)).lcu = s.lcu ∧ (drumNotice l old (lmuNotice l s)).det = s.det
      ∧ (drumNotice l old (lmuNotice l s)).lmu = (lmuNotice l s).lmu := by
    unfold drumNotice; dsimp only
    simp only [hl, h, decide_false, Bool.false_and, Bool.false_eq_true, if_false]
    split <;> exact ⟨hm.1, hm.2, rfl⟩
  have hr : ∀ u : State, (regNotice l u).lcu = u.lcu ∧ (regNotice l u).det = u.det ∧ (regNotice l u).lmu = u.lmu := by
    intro u; unfold regNotice; dsimp only; split <;> exact ⟨rfl, rfl, rfl⟩
  have ha : CallAside s (regNotice l (drumNotice l old (lmuNotice l s))) :=
    (lmuNotice_aside.trans (drumNotice_aside old (by rw [hl]; exact h))).trans regNotice_aside
  have key := hr (drumNotice l old (lmuNotice l s))
  rw [hd.1, hd.2.1, hd.2.2] at key
  rcases hw with rfl | rfl
  · exact ⟨ha, key⟩
  · exact ⟨ha.trans (.of_sup rfl (fun _ => rfl) (.of rfl rfl)), key⟩

theorem detNotice_lcu : (detNotice l s).lcu = s.lcu := by
  have hc : ∀ x : State, (signalCounters l x).lcu = x.lcu := by intro x; unfold signalCounters; dsimp only; split <;> rfl
  unfold detNotice; dsimp only; rw [hc]; split
  · exact (machinery_lcu (s := s.setDet l ((s.det.get l).noticed (s.stateOf l))) surgeEnded_machinery :)
  · rfl

/-- The call after a whole notice of a state other than DISABLED (R60, R132). -/
theorem notify_call (old : LineState) (h : s.stateOf l ≠ .disabled) :
    CallFollows l s (notify l old s) ∧ (notify l old s).sup.call.surgeCount = s.sup.call.surgeCount
    ∧ ((notify l old s).sup.view.get l).latchIntent = (s.lcu.get l).intent.map (·.latch)
    ∧ ((notify l old s).sup.view.get l).lastLatch = (s.lcu.get l).lastStatus.map (·.latch) := by
  obtain ⟨w, hw, hn⟩ := notify_cases (s := s) (l := l) old
  obtain ⟨ha, hc, -, -⟩ := notify_first old h hw
  have hst : ∀ x : State, x.lcu = s.lcu → x.stateOf l ≠ .disabled := by
    intro x hx; unfold State.stateOf at h ⊢; rwa [hx]
  have hraise : ∀ u : State, CallFollows l s u → s.vessel.tx = u.vessel.tx → CallFollows l s (raise .lineState (.line l) u) :=
    fun u hu hx => hu.after (.of_sup rfl (fun _ => rfl) (raise_grows _ _)) hx ⟨hu.permits.1, hu.permits.2.1⟩
  rcases hn with hn | hn <;> rw [hn, raise_sup]
  · obtain ⟨d1, -⟩ := detNotice_aside (s := w) (l := l)
    obtain ⟨f1, f2⟩ := supNotice_follows (s := detNotice l w) (l := l) (hst _ (detNotice_lcu.trans hc))
    refine ⟨hraise _ (.before (ha.trans d1) f1 supNotice_grows) ((ha.trans d1).grows.trans supNotice_grows).2.2.symm,
      by rw [f2, d1.call, ha.call], ?_, ?_⟩ <;> rw [supNotice_view, detNotice_lcu, hc]
  · obtain ⟨f1, f2⟩ := supNotice_follows (s := w) (l := l) (hst _ hc)
    obtain ⟨d1, d2⟩ := detNotice_aside (s := supNotice l w) (l := l)
    have hf := CallFollows.before ha f1 supNotice_grows
    have hg := ha.grows.trans (supNotice_grows (l := l))
    refine ⟨hraise _ (hf.after d1 hg.2.2.symm ?_) (hg.trans d1.grows).2.2.symm, by rw [d1.call, f2, ha.call], ?_, ?_⟩
    · rcases d2 with d2 | d2
      · rw [d2]; exact ⟨hf.permits.1, hf.permits.2.1⟩
      · exact d2
    · rw [(d1.views l).2.1, supNotice_view, hc]
    · rw [(d1.views l).2.2, supNotice_view, hc]

theorem rateClassOf_eq (st : LineState) (a b : Bool) : rateClassOf st a b = classOf st a b := by
  cases st <;> cases a <;> cases b <;> rfl

theorem watched_eq (st : LineState) (k : Condition) : (watched st).get k = watches st k := by cases st <;> cases k <;> rfl

/-- The channel's rate class is the one of the table of R7, for what the channel has been told. -/
def LmuChannel.classed (c : LmuChannel) : Prop := c.rateClass = classOf c.stateView c.counterView c.surgeView

theorem reclassed_classed (c : LmuChannel) : c.reclassed.classed := rateClassOf_eq _ _ _

theorem lmuNotice_classed : ((lmuNotice l s).lmu.get l).classed := by
  have hn : ∀ (c : LmuChannel) p n, (c.noticed p n).classed := by
    intro c p n; unfold LmuChannel.noticed; dsimp only; split <;> exact reclassed_classed _
  have hg : ∀ (c : LmuChannel) p, c.classed → (c.gateStarted p).classed := by
    intro c p h; unfold LmuChannel.gateStarted; split <;> exact h
  unfold lmuNotice gateStart
  dsimp only
  split <;> simp [hn, hg]

theorem detNotice_classed (h : (s.lmu.get l).classed) : ((detNotice l s).lmu.get l).classed := by
  have ht : ∀ (u : State) v, ((tellSurge l v u).lmu.get l).classed := by
    intro u v; simp only [tellSurge, State.setLmu_lmu, Lines.get_set_same]; exact reclassed_classed _
  have hc : ∀ u : State, (u.lmu.get l).classed → ((signalCounters l u).lmu.get l).classed := by
    intro u hu; unfold signalCounters tellCounters; dsimp only; split
    · exact hu
    · simp only [State.setLmu_lmu, Lines.get_set_same]; exact reclassed_classed _
  unfold detNotice
  dsimp only
  split
  · exact hc _ (ht _ _)
  · exact hc _ h

theorem classed_of_items {u v : State} (h : u.lmuItems l = v.lmuItems l) (k : (v.lmu.get l).classed) :
    (u.lmu.get l).classed := by
  have e1 : (u.lmu.get l).rateClass = (v.lmu.get l).rateClass := (congrArg LmuChannel.rateClass h :)
  have e2 : (u.lmu.get l).stateView = (v.lmu.get l).stateView := (congrArg LmuChannel.stateView h :)
  have e3 : (u.lmu.get l).counterView = (v.lmu.get l).counterView := (congrArg LmuChannel.counterView h :)
  have e4 : (u.lmu.get l).surgeView = (v.lmu.get l).surgeView := (congrArg LmuChannel.surgeView h :)
  unfold LmuChannel.classed at k ⊢
  rw [e1, e2, e3, e4, k]

theorem detNotice_det : ∃ b, (detNotice l s).det.get l = { (s.det.get l).noticed (s.stateOf l) with pendingIndicator := b } := by
  have hc : ∀ u : State, ∃ b, (signalCounters l u).det.get l = { u.det.get l with pendingIndicator := b } := by
    intro u; unfold signalCounters tellCounters; dsimp only; split
    · exact ⟨_, rfl⟩
    · exact ⟨(u.det.get l).anyCounter, by simp⟩
  unfold detNotice
  dsimp only
  obtain ⟨b, hb⟩ := hc (if noticeEndsSurge l s = true then surgeEnded l (s.setDet l ((s.det.get l).noticed (s.stateOf l)))
    else s.setDet l ((s.det.get l).noticed (s.stateOf l)))
  refine ⟨b, hb.trans ?_⟩
  split <;> simp [surgeEnded_det]

/-- The Detector and the rate class after a whole notice of a state other than DISABLED (R7, R27). -/
theorem notify_det (old : LineState) (h : s.stateOf l ≠ .disabled) :
    ((notify l old s).lmu.get l).classed ∧ Retained l (s.stateOf l) s (notify l old s) := by
  obtain ⟨w, hw, hn⟩ := notify_cases (s := s) (l := l) old
  obtain ⟨-, hc, hd, hm⟩ := notify_first old h hw
  have hst : ∀ x : State, x.lcu = s.lcu → x.stateOf l = s.stateOf l := by intro x hx; unfold State.stateOf; rw [hx]
  have hk : (w.lmu.get l).classed := by rw [hm]; exact lmuNotice_classed
  have hr : ∀ (u : State) (b : Bool),
      u.det.get l = { (s.det.get l).noticed (s.stateOf l) with pendingIndicator := b } → Retained l (s.stateOf l) s u := by
    intro u b hu
    refine ⟨fun k => ?_, ?_, ?_⟩ <;> rw [hu] <;> simp only [DetectorChannel.noticed, latched_eq_inFamily]
    · rw [← watched_eq]; cases k <;> exact ⟨rfl, rfl⟩
  rcases hn with hn | hn <;> rw [hn] <;> refine ⟨?_, ?_⟩
  · rw [raise_lmu]; exact classed_of_items (supNotice_lmuItems l) (detNotice_classed hk)
  · obtain ⟨b, hb⟩ := detNotice_det (s := w) (l := l)
    refine hr _ b ?_
    rw [raise_det, machinery_det supNotice_machinery, hb, hst w hc, hd]
  · rw [raise_lmu]; exact detNotice_classed (classed_of_items (supNotice_lmuItems l) hk)
  · obtain ⟨b, hb⟩ := detNotice_det (s := supNotice l w) (l := l)
    refine hr _ b ?_
    rw [raise_det, hb, hst _ ((machinery_lcu supNotice_machinery).trans hc), machinery_det supNotice_machinery, hd]

/-! ## The entry -/

/-- A channel placed in a state holds it, its resume state, its fault cause and its timer. -/
theorem placed_items (c : LcuChannel) (p : LineProfile) (n : LineState) (r : Option Resume) (f : Option FaultCause) :
    (c.placed p n r f).state = n ∧ (c.placed p n r f).resume = r ∧ (c.placed p n r f).faultCause = f
      ∧ (c.placed p n r f).timer = stateTimer p n := by
  cases n <;> exact ⟨rfl, rfl, rfl, rfl⟩

/-- What a placement leaves alone, but in DISABLED and ADOPTING. -/
theorem placed_kept (c : LcuChannel) (p : LineProfile) (n : LineState) (r : Option Resume) (f : Option FaultCause)
    (h : n ≠ .disabled) (h' : n ≠ .adopting) :
    c.placed p n r f =
      { c with state := n, resume := r, faultCause := f, timer := stateTimer p n, freshStatus := none, freshSample := false } := by
  cases n <;> first | rfl | contradiction

/-- The intent refreshed: the line's channel, its COMMAND, and the rest (R61, R62). -/
theorem refreshIntent_spec (e : Bool) :
    (refreshIntent l e s).lcu = s.lcu.set l
        { s.lcu.get l with intent := intentOf (s.profile l) (s.reg.get l).speed (s.lcu.get l) }
    ∧ (∀ i, intentOf (s.profile l) (s.reg.get l).speed (s.lcu.get l) = some i →
        (refreshIntent l e s).bus.queue =
          if e = false ∧ (s.lcu.get l).intent.any (·.same i) = true then s.bus.queue
          else placeCommand l i e s.bus.queue)
    ∧ (intentOf (s.profile l) (s.reg.get l).speed (s.lcu.get l) = none → (refreshIntent l e s).bus = s.bus) := by
  unfold refreshIntent
  dsimp only
  cases hi : intentOf (s.profile l) (s.reg.get l).speed (s.lcu.get l) with
  | none => exact ⟨rfl, by simp, fun _ => rfl⟩
  | some i =>
    cases hc : (s.lcu.get l).intent with
    | none => simp [queueCommand]
    | some j => cases e <;> cases hs : j.same i <;> simp [queueCommand, hs]

/-- A COMMAND placed is in the queue, with its payload, URGENT where it was placed so (R154). -/
theorem placeCommand_has (l : Line) (i : Intent) (v : Bool) (q : List BusRecord) :
    ∃ r ∈ placeCommand l i v q, r.line = l ∧ r.kind = .command i ∧ (v = true → r.urgent = true) := by
  have hb : ∀ (r : BusRecord) (q : List BusRecord), r ∈ behindUrgent r q := by intro r q; simp [behindUrgent]
  unfold placeCommand
  split
  · split
    · exact ⟨_, hb _ _, rfl, rfl, fun _ => rfl⟩
    · rename_i hv
      exact ⟨⟨l, .command i, false⟩, by simp, rfl, rfl, fun h => absurd h hv⟩
  · rename_i old ho
    split
    · exact ⟨_, hb _ _, rfl, rfl, fun _ => rfl⟩
    · rename_i hv
      have hp := List.find?_some ho
      have hm := List.mem_of_find?_eq_some ho
      refine ⟨{ old with kind := .command i }, List.mem_map.2 ⟨old, hm, by rw [if_pos hp]⟩, ?_, rfl, ?_⟩
      · simp [BusRecord.isCommand] at hp; exact hp.1
      · intro h; subst h; simpa using hv

theorem enter_lineFrame (n : LineState) (r : Option Resume) (f : Option FaultCause) (h : n ≠ .disabled) :
    LineFrame l s (enter l n r f s) := by
  unfold enter
  dsimp only
  have h1 : LineFrame l s (refreshIntent l (decide (n = .tripped))
      (s.setLcu l ((s.lcu.get l).placed (s.profile l) n r f))) := (setLcu_lineFrame _).trans (refreshIntent_lineFrame _)
  have hst : (refreshIntent l (decide (n = .tripped))
      (s.setLcu l ((s.lcu.get l).placed (s.profile l) n r f))).stateOf l = n := by
    unfold State.stateOf
    rw [(refreshIntent_spec _).1]
    simp [placed_items]
  have h2 := h1.trans (notify_lineFrame (s.lcu.get l).state (by rw [hst]; exact h))
  exact .ite (h2.trans reseed_lineFrame) h2

/-- The channel, the bus and the views after an entry to a state other than DISABLED. -/
theorem enter_spec (n : LineState) (r : Option Resume) (f : Option FaultCause) (h : n ≠ .disabled) :
    let c := (s.lcu.get l).placed (s.profile l) n r f
    let i := intentOf (s.profile l) (s.reg.get l).speed c
    let u := enter l n r f s
    u.lcu.get l = { c with intent := i }
    ∧ (∀ j, i = some j → u.bus.queue =
        if n ≠ .tripped ∧ (s.lcu.get l).intent.any (·.same j) = true then s.bus.queue
        else placeCommand l j (n = .tripped) s.bus.queue)
    ∧ (i = none → u.bus.queue = s.bus.queue)
    ∧ (u.lmu.get l).stateView = n ∧ (u.det.get l).stateView = n ∧ (u.reg.get l).stateView = n
    ∧ (u.sup.view.get l).state = n ∧ Raised .lineState (.line l) s u ∧ EventsGrow s u
    ∧ CallFollows l s u ∧ u.sup.call.surgeCount = s.sup.call.surgeCount
    ∧ (u.sup.view.get l).latchIntent = i.map (·.latch) ∧ (u.sup.view.get l).lastLatch = c.lastStatus.map (·.latch)
    ∧ (u.lmu.get l).classed ∧ Retained l n s u := by
  intro c i u
  let v := refreshIntent l (decide (n = .tripped)) (s.setLcu l c)
  have hv := refreshIntent_spec (s := s.setLcu l c) (l := l) (decide (n = .tripped))
  simp only [State.setLcu_lcu, Lines.get_set_same, State.setLcu_profile, State.setLcu_reg, Lines.set_set, State.setLcu_bus] at hv
  have hst : v.stateOf l = n := by
    show (v.lcu.get l).state = n
    rw [show v.lcu = _ from hv.1]; simp [c, placed_items]
  have hn := notify_lcu_bus (s := v) (l := l) (s.lcu.get l).state (by rw [hst]; exact h)
  have hw := notify_views (s := v) (l := l) (s.lcu.get l).state (by rw [hst]; exact h)
  have hr := notify_raised (s := v) (l := l) (s.lcu.get l).state
  have hg := notify_grows (s := v) (l := l) (s.lcu.get l).state
  have hgv : EventsGrow s v := .pre (s := s) (t := s.setLcu l c) (refreshIntent_grows _)
  have hint : c.intent = (s.lcu.get l).intent := by
    show ((s.lcu.get l).placed (s.profile l) n r f).intent = _
    cases n <;> rfl
  have hu : u = if n = .holding then reseed l (notify l (s.lcu.get l).state v) else notify l (s.lcu.get l).state v := rfl
  have ulcu : u.lcu = v.lcu := by rw [hu]; split <;> exact hn.1
  have ubus : u.bus = v.bus := by rw [hu]; split <;> exact hn.2
  have hf := notify_call (s := v) (l := l) (s.lcu.get l).state (by rw [hst]; exact h)
  have hk := notify_det (s := v) (l := l) (s.lcu.get l).state (by rw [hst]; exact h)
  have usup : u.sup = (notify l (s.lcu.get l).state v).sup := by rw [hu]; split <;> rfl
  have vrest : v.sup = s.sup ∧ v.lmu = s.lmu ∧ v.det = s.det := by
    show (refreshIntent l _ _).sup = _ ∧ (refreshIntent l _ _).lmu = _ ∧ (refreshIntent l _ _).det = _
    unfold refreshIntent
    dsimp only
    split
    · exact ⟨rfl, rfl, rfl⟩
    · split <;> split <;> exact ⟨rfl, rfl, rfl⟩
  have hva : CallAside s v := .of_sup vrest.1 (fun _ => by rw [vrest.2.1]) hgv
  have hvl : v.lcu.get l = { c with intent := i } := by rw [show v.lcu = _ from hv.1]; simp [i]
  have hcall : CallFollows l s (notify l (s.lcu.get l).state v) := .before hva hf.1 hg
  refine ⟨?_, ?_, ?_, ?_, ?_, ?_, ?_, ?_, ?_, ?_, ?_, ?_, ?_, ?_, ?_⟩
  · rw [ulcu, show v.lcu = _ from hv.1]; simp [i]
  · intro j hj
    rw [ubus, show v.bus.queue = _ from hv.2.1 j hj]
    rw [hint]
    by_cases hx : n = .tripped <;> simp [hx]
  · intro hj; rw [ubus, show v.bus = _ from hv.2.2 hj]
  · rw [hu]; split
    · simp only [reseed, State.setLmu_lmu, Lines.get_set_same, LmuChannel.reseeded]; rw [hw.1, hst]
    · rw [hw.1, hst]
  · rw [hu]; split
    · show ((notify l _ v).det.get l).stateView = n
      rw [hw.2.1, hst]
    · rw [hw.2.1, hst]
  · rw [hu]; split
    · show ((notify l _ v).reg.get l).stateView = n
      rw [hw.2.2.1, hst]
    · rw [hw.2.2.1, hst]
  · rw [hu]; split
    · show ((notify l _ v).sup.view.get l).state = n
      rw [hw.2.2.2, hst]
    · rw [hw.2.2.2, hst]
  · have : Raised .lineState (.line l) s (notify l (s.lcu.get l).state v) := hr.of_tx hgv.2.2.symm
    rw [hu]; split
    · exact this.grow reseed_grows
    · exact this
  · rw [hu]; split
    · exact (hgv.trans hg).trans reseed_grows
    · exact hgv.trans hg
  · rw [hu]; split
    · refine hcall.after (.of_sup rfl (fun m => ?_) reseed_grows) (hgv.trans hg).2.2.symm ⟨hcall.permits.1, hcall.permits.2.1⟩
      by_cases hm : m = l
      · subst hm; simp [reseed, LmuChannel.reseeded]
      · simp [reseed, hm]
    · exact hcall
  · rw [usup, hf.2.1, vrest.1]
  · rw [usup, hf.2.2.1, hvl]
  · rw [usup, hf.2.2.2, hvl]
  · rw [hu]; split
    · have := hk.1
      simp only [reseed, State.setLmu_lmu, Lines.get_set_same]
      exact this
    · exact hk.1
  · have : Retained l n s (notify l (s.lcu.get l).state v) := by
      have := hk.2
      unfold Retained at this ⊢
      rw [hst, vrest.2.2] at this
      exact this
    rw [hu]; split
    · exact this
    · exact this

/-- The frame of an entry to a state other than DISABLED, the call record with it. -/
theorem enter_onlyLine (n : LineState) (r : Option Resume) (f : Option FaultCause) (h : n ≠ .disabled) :
    OnlyLine l s (enter l n r f s) where
  toLineFrame := enter_lineFrame n r f h
  call hx := by
    obtain ⟨-, -, -, -, -, -, -, -, -, hf, hs, -⟩ := enter_spec (s := s) (l := l) n r f h
    obtain ⟨a, b, c, d, e⟩ := hf.phases.2
    have ho : ¬ (s.sup.adoptionComplete = false ∧ (∀ m, ((enter l n r f s).sup.view.get m).state ≠ .adopting)
        ∧ ∃ m, inFamily ((enter l n r f s).sup.view.get m).state = true) := by simp [hx]
    rw [hs] at b c d e
    refine ⟨hf.adoption.2 (.inl hx), ?_, a ho⟩
    by_cases h1 : s.sup.call.phase = .moored ∧ s.sup.call.assigned.get l = true
        ∧ (s.sup.view.get l).state ≠ ((enter l n r f s).sup.view.get l).state
        ∧ (((enter l n r f s).sup.view.get l).state = .easing ∨ ((enter l n r f s).sup.view.get l).state = .unlatching
          ∨ ((enter l n r f s).sup.view.get l).state = .tripped)
    · rw [(b ho h1).1]
    · by_cases h2 : s.sup.call.phase = .arriving ∧ heldFast s.sup.call.assigned (enter l n r f s)
      · rw [(c ho h2).1]
      · by_cases h3 : s.sup.call.phase = .lettingGo ∧ departHolds (enter l n r f s)
        · rw [(d ho h3).1]
        · rw [e ho h1 h2 h3]

/-- An entry as statements say it. -/
theorem enter_entered (n : LineState) (r : Option Resume) (f : Option FaultCause) (i : Intent) (h : n ≠ .disabled)
    (hi : intentOf (s.profile l) (s.reg.get l).speed ((s.lcu.get l).placed (s.profile l) n r f) = some i)
    (hu : i.urgent = decide (n = .tripped)) :
    Entered l n r i (stateTimer (s.profile l) n) s (enter l n r f s) := by
  obtain ⟨hc, hq, _, a, b, c, d, e, _, g1, g2, g3, g4, g5, g6⟩ := enter_spec (s := s) (l := l) n r f h
  have hp := placed_items (s.lcu.get l) (s.profile l) n r f
  have hrate : ((enter l n r f s).lmu.get l).rateClass
      = classOf n ((enter l n r f s).lmu.get l).counterView ((enter l n r f s).lmu.get l).surgeView := by
    have := g5; unfold LmuChannel.classed at this; rw [this, a]
  refine ⟨?_, ?_, ?_, ?_, ?_, a, b, c, d, ⟨by rw [g3, hi]; rfl, by rw [g4, hc]⟩, hrate, g6, g1, g2, e⟩
  · rw [hc]; exact hp.1
  · rw [hc]; exact hp.2.1
  · rw [hc]; exact hi
  · rw [hc]; exact hp.2.2.2
  · unfold Commanded
    have hq := hq i hi
    by_cases hx : i.urgent = false ∧ (s.lcu.get l).intent.any (·.same i) = true
    · rw [if_pos hx, hq, if_pos]
      refine ⟨?_, hx.2⟩
      rw [hu] at hx; simpa using hx.1
    · rw [if_neg hx, hq, if_neg]
      · obtain ⟨r, h1, h2, h3, h4⟩ := placeCommand_has l i (decide (n = .tripped)) s.bus.queue
        exact ⟨r, h1, h2, h3, fun z => h4 (by rw [← hu]; exact z)⟩
      · intro ⟨y1, y2⟩
        exact hx ⟨by rw [hu]; simpa using y1, y2⟩

/-! ## Whole changes -/

/-- The Sequencer does nothing with a notice of a line that is not of an ISSUED current step, or of a state that makes no line
clear and is no failure (R118, R119). -/
theorem seqNotice_id (h : outOfStep s l = true ∨
    (s.stateOf l ≠ .fault ∧ s.stateOf l ≠ .disabled ∧ isClear (s.stateOf l) = false)) : seqNotice l false s = s := by
  unfold seqNotice
  split
  · rename_i hc
    rcases h with h | ⟨h1, h2, h3⟩
    · unfold outOfStep at h; rw [hc] at h; contradiction
    · have hs : stepClear s = false := by
        by_contra hx
        have := (Lines.allB_iff _ _).1 (by simpa [stepClear] using hx) l
        simp at hc
        simp [hc.2, h3] at this
      simp [h1, h2, hs]
  · rfl

/-- The Profile Store does nothing with a notice of a line that has no pending apply, or of a state other than STOWED and FAULT
(R189). -/
theorem storeNotice_id (h : s.store.applyPending.lines.get l = false ∨ (s.stateOf l ≠ .stowed ∧ s.stateOf l ≠ .fault)) :
    storeNotice l s = s := by
  unfold storeNotice
  rcases h with h | h <;> simp [h]

/-- An entry that neither the Sequencer nor the Profile Store acts on. -/
theorem changeLine_eq_enter (n : LineState) (r : Option Resume) (h : n ≠ .disabled)
    (hq : outOfStep s l = true ∨ (n ≠ .fault ∧ isClear n = false))
    (hp : s.store.applyPending.lines.get l = false ∨ (n ≠ .stowed ∧ n ≠ .fault)) :
    changeLine l n r s = enter l n r none s := by
  have hs : (enter l n r none s).stateOf l = n := by
    unfold State.stateOf; rw [(enter_spec (s := s) (l := l) n r none h).1]; exact (placed_items _ _ _ _ _).1
  have ho := enter_lineFrame (s := s) (l := l) n r none h
  unfold changeLine
  rw [seqNotice_id, storeNotice_id]
  · rw [ho.store, hs]; exact hp
  · rw [hs]
    rcases hq with hq | hq
    · left; unfold outOfStep at hq ⊢; rw [ho.plan]; exact hq
    · exact .inr ⟨hq.1, h, hq.2⟩

end Sys2Proof.Machine
end

