-- ==== Sys2Proof/Laws/Handed.lean ====
section
/-! SUPPORT. What the Sequencer's commands can do: handed on, on their way, taken or refused by their lines. -/

namespace Sys2Proof.Machine

variable {s : State}

/-- Commands handed on are all taken at once, with nothing on its way before, or are all on their way behind the earlier ones. -/
theorem hand_cases (take : State → Handed → State) (x : List Handed) :
    (s.handed = [] ∧ hand take x s = inFreeOrder take x s.drawn) ∨ hand take x s = { s.drawn with handed := s.handed ++ x } := by
  unfold hand
  split
  · next h => exact .inl ⟨by simp at h; exact h.1.1, rfl⟩
  · exact .inr rfl

/-- A command that the LCU refuses leaves every block as it was, and is answered with another code than OK. -/
theorem lcuHanded_refused {h : Handed} (hr : refusedAt s h = true) : (lcuHanded h s).1 = s ∧ (lcuHanded h s).2 ≠ .ok := by
  obtain ⟨l, c⟩ := h
  cases c
  · simp only [refusedAt, lcuHanded, lcuRelease, ← latched_eq_inFamily, Bool.or_eq_true, Bool.not_eq_true'] at hr ⊢
    rcases hr with (h | h) | h <;> (repeat' split) <;> simp_all
  · simp only [refusedAt, lcuHanded, lcuTrip, State.stateOf, Bool.or_eq_true, beq_iff_eq] at hr ⊢
    rcases hr with ((h | h) | h) | h <;> simp [h, untrippable]
  · simp only [refusedAt, lcuHanded, lcuResume, Bool.or_eq_true, bne_iff_ne, beq_iff_eq] at hr ⊢
    split
    · exact ⟨rfl, nofun⟩
    · split
      · next h1 h2 => rcases hr with (h | h) | h <;> simp_all
      · exact ⟨rfl, nofun⟩

/-- A command that the LCU takes moves its line: a RELEASE to EASING, a TRIP to TRIPPED unless it is there already, a RESUME to the
resume state. -/
theorem lcuHanded_taken {h : Handed} (hr : refusedAt s h = false) :
    (lcuHanded h s).2 = .ok
    ∧ (lcuHanded h s).1 =
        match h.command, (s.lcu.get h.line).resume with
        | .release, _ => enterPlain h.line .easing s
        | .trip, _ => if s.stateOf h.line = .tripped then s else raise .trip (.line h.line) (enterPlain h.line .tripped s)
        | .resume, some r => enterPlain h.line r.state s
        | .resume, none => s := by
  obtain ⟨l, c⟩ := h
  cases c
  · simp only [refusedAt, Bool.or_eq_false_iff, Bool.not_eq_false', ← latched_eq_inFamily] at hr
    simp [lcuHanded, lcuRelease, hr.1.1, hr.1.2, hr.2]
  · simp only [refusedAt, Bool.or_eq_false_iff, beq_eq_false_iff_ne] at hr
    have hu : untrippable (s.stateOf l) = false := by
      show untrippable (s.lcu.get l).state = false
      revert hr; cases (s.lcu.get l).state <;> simp [untrippable]
    simp only [lcuHanded, lcuTrip, hu]
    by_cases h : s.stateOf l = .tripped <;> simp [h]
  · simp only [refusedAt, Bool.or_eq_false_iff, bne_eq_false_iff_eq, beq_eq_false_iff_ne] at hr
    obtain ⟨r, h⟩ := Option.ne_none_iff_exists'.mp hr.2
    simp [lcuHanded, lcuResume, hr.1.1, hr.1.2, h]

/-- A refusal at the Sequencer (R116): a RUNNING plan with the line in its current step is HELD LINE_NOT_READY, any other stays. -/
theorem takeHanded_refused {h : Handed} (hr : refusedAt s h = true) :
    takeHanded s h = if s.plan.currentLines.get h.line then holdPlan .lineNotReady s else s := by
  obtain ⟨hs, hc⟩ := lcuHanded_refused hr
  simp [takeHanded, seqReply, hs, hc]

/-- A command taken changes at the Sequencer only what its line's notice does: nothing, but after a RESUME (R118). -/
theorem takeHanded_taken {h : Handed} (hr : refusedAt s h = false) :
    takeHanded s h =
      if h.command = .resume then seqNotice h.line false (lcuHanded h s).1 else (lcuHanded h s).1 := by
  have hc := (lcuHanded_taken hr).1
  by_cases hk : h.command = .resume <;> simp [takeHanded, seqReply, hc, hk]

/-- A step's RELEASE or TRIP is taken alike at once and on its way. -/
theorem takeHanded_step {h : Handed} (hk : h.command ≠ .resume) : takeHanded s h = takeStepCommand s h := by
  simp [takeHanded, takeStepCommand, hk]

/-- What can reach its line now is the first command on its way there, with no mark before it. -/
theorem mem_arriving (h : Handed) :
    h ∈ arriving s ↔ (s.lcu.get h.line).markComing = false ∧ s.handed.find? (·.line == h.line) = some h := by
  simp only [arriving, List.mem_filterMap, Line.mem_all, true_and]
  constructor
  · rintro ⟨l, hl⟩
    split at hl
    · exact nomatch hl
    · next hm =>
      have : h.line = l := by simpa using List.find?_some hl
      subst this
      exact ⟨by simpa using hm, hl⟩
  · rintro ⟨hm, hf⟩
    exact ⟨h.line, by simp [hm, hf]⟩

end Sys2Proof.Machine
end

