-- ==== Sys2Proof/Laws/Orders.lean ====
section
/-! SUPPORT. The laws of a drawn order: it is a permutation, and steps that commute give the same in any order (R17, R140). -/

namespace Sys2Proof.Machine

/-- An order drawn for some recipients or lines leaves none out and repeats none. -/
theorem permute_perm {α : Type} : ∀ (n : Nat) (q : List α), (permute n q).Perm q
  | _, [] => List.Perm.refl _
  | _, [x] => List.Perm.refl _
  | n, x :: y :: xs => by
    unfold permute
    dsimp only
    have h := permute_perm (n / (xs.length + 2)) (y :: xs)
    refine (List.perm_insertIdx x _ ?_).trans (h.cons x)
    rw [h.length_eq]
    have := Nat.mod_lt n (show 0 < xs.length + 2 by omega)
    simp; omega

/-- Steps that keep a property and commute where it holds give the same state in any order. -/
theorem foldl_perm {α : Type} (f : State → α → State) (G : State → Prop) (hG : ∀ s r, G s → G (f s r))
    (hc : ∀ s a b, G s → f (f s a) b = f (f s b) a) {p q : List α} (h : p.Perm q) :
    ∀ s, G s → p.foldl f s = q.foldl f s := by
  induction h with
  | nil => intro s _; rfl
  | cons x _ ih => intro s hs; exact ih _ (hG _ _ hs)
  | swap x y l => intro s hs; simp only [List.foldl_cons]; rw [hc s y x hs]
  | trans _ _ ih1 ih2 => intro s hs; rw [ih1 s hs, ih2 s hs]

end Sys2Proof.Machine
end

