-- ==== Sys2Proof/WellFormed.lean ====
section
/-! DEFINITION. Which commands are well formed: the ranges the spec gives their operands beyond what the types already say. -/

namespace Sys2Proof

/-- A command is well formed:
a good sample has at least one tick (R3);
a frame released after a count of whole bytes has that many (R168);
a WRITE_PROFILE carries 78 bytes (R186);
a record read back has 80 bytes (R184). -/
def Instr.wellFormed : Instr → Bool
  | .goodSample _ ticks => ticks.toNat != 0
  | .frameRelease count _ frame => frame.length == count
  | .writeProfile _ _ bytes => bytes.length == 78
  | .writeProgrammingEnd readBack => readBack.length == 80
  | _ => true

end Sys2Proof
end

