-- ==== Sys2Proof/Laws/PerInstr.lean ====
section
/-! SUPPORT. One statement for each command as syntax: the only forms outside the spec's operand ranges are a good sample of no
tick (R3), a frame of another length than its count (R168), a WRITE_PROFILE without its 78 bytes (R186), and a read-back without
its 80 (R184). -/

namespace Sys2Proof.Laws

/-- The command is well formed, or it is one of the four forms that WellFormed refuses. -/
def Accepted.Statement (i : Instr) : Prop :=
  i.wellFormed = true
  ∨ (∃ l, i = .goodSample l 0#24)
  ∨ (∃ n mid f, i = .frameRelease n mid f ∧ f.length ≠ n)
  ∨ (∃ x r b, i = .writeProfile x r b ∧ b.length ≠ 78)
  ∨ ∃ b, i = .writeProgrammingEnd b ∧ b.length ≠ 80

theorem Accepted.powerOn : Accepted.Statement (.powerOn) := .inl rfl
theorem Accepted.pinReset : Accepted.Statement (.pinReset) := .inl rfl
theorem Accepted.resetCompletion : Accepted.Statement (.resetCompletion) := .inl rfl
theorem Accepted.sampleBoundary (line : Line) : Accepted.Statement (.sampleBoundary line) := .inl rfl
theorem Accepted.goodSample (line : Line) (ticks : BitVec 24) : Accepted.Statement (.goodSample line ticks) := by
  by_cases h : ticks = 0#24
  · exact .inr (.inl ⟨line, by rw [h]⟩)
  · refine .inl ?_
    have : ticks.toNat ≠ 0 := fun e => h (BitVec.eq_of_toNat_eq e)
    simpa [Instr.wellFormed] using this
theorem Accepted.gateDeadline (line : Line) : Accepted.Statement (.gateDeadline line) := .inl rfl
theorem Accepted.tickCountOverflow (line : Line) : Accepted.Statement (.tickCountOverflow line) := .inl rfl
theorem Accepted.holdTimerExpiry (line : Line) : Accepted.Statement (.holdTimerExpiry line) := .inl rfl
theorem Accepted.encoderChange (line : Line) (a : Bool) (b : Bool) : Accepted.Statement (.encoderChange line a b) := .inl rfl
theorem Accepted.stationaryExpiry (line : Line) : Accepted.Statement (.stationaryExpiry line) := .inl rfl
theorem Accepted.flankExpiry : Accepted.Statement (.flankExpiry) := .inl rfl
theorem Accepted.selectRepeater (sender : Sender) (selection : Option Byte) : Accepted.Statement (.selectRepeater sender selection) := .inl rfl
theorem Accepted.attach (sender : Sender) (line : Byte) : Accepted.Statement (.attach sender line) := .inl rfl
theorem Accepted.cancel (sender : Sender) (line : Byte) : Accepted.Statement (.cancel sender line) := .inl rfl
theorem Accepted.release (sender : Sender) (line : Byte) : Accepted.Statement (.release sender line) := .inl rfl
theorem Accepted.trip (sender : Sender) (line : Byte) : Accepted.Statement (.trip sender line) := .inl rfl
theorem Accepted.rewind (sender : Sender) (line : Byte) : Accepted.Statement (.rewind sender line) := .inl rfl
theorem Accepted.resume (sender : Sender) (line : Byte) : Accepted.Statement (.resume sender line) := .inl rfl
theorem Accepted.setTarget (sender : Sender) (line : Byte) (tension : Half) : Accepted.Statement (.setTarget sender line tension) := .inl rfl
theorem Accepted.rebase (sender : Sender) (line : Byte) : Accepted.Statement (.rebase sender line) := .inl rfl
theorem Accepted.zero (sender : Sender) (line : Byte) : Accepted.Statement (.zero sender line) := .inl rfl
theorem Accepted.clearFault (sender : Sender) (line : Byte) : Accepted.Statement (.clearFault sender line) := .inl rfl
theorem Accepted.tripAll (sender : Sender) : Accepted.Statement (.tripAll sender) := .inl rfl
theorem Accepted.attachExpired (line : Line) : Accepted.Statement (.attachExpired line) := .inl rfl
theorem Accepted.easeFailed (line : Line) : Accepted.Statement (.easeFailed line) := .inl rfl
theorem Accepted.tensionTimeout (line : Line) : Accepted.Statement (.tensionTimeout line) := .inl rfl
theorem Accepted.latchStuck (line : Line) : Accepted.Statement (.latchStuck line) := .inl rfl
theorem Accepted.rewindTimeout (line : Line) : Accepted.Statement (.rewindTimeout line) := .inl rfl
theorem Accepted.adoptionLatchExpiry (line : Line) : Accepted.Statement (.adoptionLatchExpiry line) := .inl rfl
theorem Accepted.planSubmit (sender : Sender) (steps : List PlanStepField) : Accepted.Statement (.planSubmit sender steps) := .inl rfl
theorem Accepted.planHold (sender : Sender) : Accepted.Statement (.planHold sender) := .inl rfl
theorem Accepted.planResume (sender : Sender) : Accepted.Statement (.planResume sender) := .inl rfl
theorem Accepted.planAbort (sender : Sender) : Accepted.Statement (.planAbort sender) := .inl rfl
theorem Accepted.stepDelayExpiry : Accepted.Statement (.stepDelayExpiry) := .inl rfl
theorem Accepted.stepTimeout : Accepted.Statement (.stepTimeout) := .inl rfl
theorem Accepted.bind (code : Half) (lines : LineSet) : Accepted.Statement (.bind code lines) := .inl rfl
theorem Accepted.unbind (code : Half) : Accepted.Statement (.unbind code) := .inl rfl
theorem Accepted.closeCall (sender : Sender) : Accepted.Statement (.closeCall sender) := .inl rfl
theorem Accepted.clearCaptures (sender : Sender) : Accepted.Statement (.clearCaptures sender) := .inl rfl
theorem Accepted.panelInputChange (input : PanelInput) (level : Bool) : Accepted.Statement (.panelInputChange input level) := .inl rfl
theorem Accepted.panelStabilityExpiry (input : PanelInput) : Accepted.Statement (.panelStabilityExpiry input) := .inl rfl
theorem Accepted.transactionStart : Accepted.Statement (.transactionStart) := .inl rfl
theorem Accepted.commandComplete : Accepted.Statement (.commandComplete) := .inl rfl
theorem Accepted.statusComplete (bytes : StatusBytes) : Accepted.Statement (.statusComplete bytes) := .inl rfl
theorem Accepted.transactionFailed (why : NoAck) : Accepted.Statement (.transactionFailed why) := .inl rfl
theorem Accepted.busStuck : Accepted.Statement (.busStuck) := .inl rfl
theorem Accepted.busRecoveryEnd : Accepted.Statement (.busRecoveryEnd) := .inl rfl
theorem Accepted.frameStart : Accepted.Statement (.frameStart) := .inl rfl
theorem Accepted.frameRelease (count : Nat) (midByte : Bool) (frame : List Byte) : Accepted.Statement (.frameRelease count midByte frame) := by
  by_cases h : frame.length = count
  · exact .inl (by simpa [Instr.wellFormed] using h)
  · exact .inr (.inr (.inl ⟨count, midByte, frame, rfl, h⟩))
theorem Accepted.readLine (sender : Sender) (line : Byte) : Accepted.Statement (.readLine sender line) := .inl rfl
theorem Accepted.readCall (sender : Sender) : Accepted.Statement (.readCall sender) := .inl rfl
theorem Accepted.readPlan (sender : Sender) : Accepted.Statement (.readPlan sender) := .inl rfl
theorem Accepted.readCaptures (sender : Sender) : Accepted.Statement (.readCaptures sender) := .inl rfl
theorem Accepted.readEvents (sender : Sender) : Accepted.Statement (.readEvents sender) := .inl rfl
theorem Accepted.setMask (sender : Sender) (mask : KindSet) : Accepted.Statement (.setMask sender mask) := .inl rfl
theorem Accepted.ackReset (sender : Sender) : Accepted.Statement (.ackReset sender) := .inl rfl
theorem Accepted.softReset (sender : Sender) : Accepted.Statement (.softReset sender) := .inl rfl
theorem Accepted.setReporting (code : Half) (mode : ReportModeField) (interval : Half) (mask : KindSet) : Accepted.Statement (.setReporting code mode interval mask) := .inl rfl
theorem Accepted.vesselMessageReceived : Accepted.Statement (.vesselMessageReceived) := .inl rfl
theorem Accepted.gapTimerExpiry : Accepted.Statement (.gapTimerExpiry) := .inl rfl
theorem Accepted.transmitEnd : Accepted.Statement (.transmitEnd) := .inl rfl
theorem Accepted.reportTimerExpiry : Accepted.Statement (.reportTimerExpiry) := .inl rfl
theorem Accepted.readProfile (sender : Sender) (record : Byte) : Accepted.Statement (.readProfile sender record) := .inl rfl
theorem Accepted.writeProfile (sender : Sender) (record : Byte) (bytes : List Byte) : Accepted.Statement (.writeProfile sender record bytes) := by
  by_cases h : bytes.length = 78
  · exact .inl (by simpa [Instr.wellFormed] using h)
  · exact .inr (.inr (.inr (.inl ⟨sender, record, bytes, rfl, h⟩)))
theorem Accepted.lockProfile (sender : Sender) (record : Byte) : Accepted.Statement (.lockProfile sender record) := .inl rfl
theorem Accepted.commissionProfile (sender : Sender) (record : Byte) : Accepted.Statement (.commissionProfile sender record) := .inl rfl
theorem Accepted.verifyStore (sender : Sender) : Accepted.Statement (.verifyStore sender) := .inl rfl
theorem Accepted.writeProgrammingEnd (readBack : List Byte) : Accepted.Statement (.writeProgrammingEnd readBack) := by
  by_cases h : readBack.length = 80
  · exact .inl (by simpa [Instr.wellFormed] using h)
  · exact .inr (.inr (.inr (.inr ⟨readBack, rfl, h⟩)))
theorem Accepted.lockProgrammingEnd : Accepted.Statement (.lockProgrammingEnd) := .inl rfl
theorem Accepted.gateOpeningEdge (line : Line) : Accepted.Statement (.gateOpeningEdge line) := .inl rfl
theorem Accepted.shoreDecodeEnd : Accepted.Statement (.shoreDecodeEnd) := .inl rfl
theorem Accepted.vesselByteReceived (byte : Byte) (goodStop : Bool) : Accepted.Statement (.vesselByteReceived byte goodStop) := .inl rfl

end Sys2Proof.Laws
end

