-- ==== Sys2Proof/Laws/Requests.lean ====
section
/-! SUPPORT. The law of a request: the checks, the owner, the reply, and what the ports change besides (R163 to R175). -/

namespace Sys2Proof.Machine

variable {s t u : State} {l : Line}

/-! ## The transmitter -/

/-- What the transmitter may change: the Vessel Port's message, reply place, owed report, overrun flag and events (R175). -/
theorem takeTx_spec (u : State) : ∃ v : VesselPort, takeTx u = u.setVessel v
    ∧ v = { u.vessel with tx := v.tx, replyPlace := v.replyPlace, reportOwed := v.reportOwed, overrunFlag := v.overrunFlag
                          events := v.events }
    ∧ (u.vessel.tx ≠ .idle → v = u.vessel)
    ∧ (u.vessel.tx = .idle → u.vessel.replyPlace = none → u.vessel.reportOwed = false → v = u.vessel) := by
  unfold takeTx
  dsimp only
  split
  · exact ⟨u.vessel, rfl, rfl, fun _ => rfl, fun _ _ _ => rfl⟩
  · rename_i hi
    split
    · rename_i r hr
      exact ⟨_, rfl, rfl, fun h => absurd hi h, fun _ h => absurd h (by simp [hr])⟩
    · split
      · rename_i ho
        exact ⟨_, rfl, rfl, fun h => absurd hi h, fun _ _ h => absurd h (by simp [ho])⟩
      · exact ⟨u.vessel, rfl, rfl, fun _ => rfl, fun _ _ _ => rfl⟩

theorem takeTx_busy (h : u.vessel.tx ≠ .idle) : takeTx u = u := by
  obtain ⟨v, hv, _, hb, _⟩ := takeTx_spec u
  rw [hv, hb h]; rfl

theorem takeTx_settled (h : u.vessel.tx ≠ .idle ∨ (u.vessel.replyPlace = none ∧ u.vessel.reportOwed = false)) :
    takeTx u = u := by
  by_cases hx : u.vessel.tx = .idle
  · rcases h with h | h
    · exact absurd hx h
    · obtain ⟨v, hv, _, _, hi⟩ := takeTx_spec u
      rw [hv, hi hx h.1 h.2]; rfl
  · exact takeTx_busy hx

theorem OnlyReply.lineItems (h : OnlyReply u t) (m : Line) : t.lineItems m = u.lineItems m := by rw [h.rest]; rfl
theorem OnlyReply.lcu (h : OnlyReply u t) : t.lcu = u.lcu := by rw [h.rest]
theorem OnlyReply.lmu (h : OnlyReply u t) : t.lmu = u.lmu := by rw [h.rest]
theorem OnlyReply.det (h : OnlyReply u t) : t.det = u.det := by rw [h.rest]
theorem OnlyReply.drum (h : OnlyReply u t) : t.drum = u.drum := by rw [h.rest]
theorem OnlyReply.reg (h : OnlyReply u t) : t.reg = u.reg := by rw [h.rest]
theorem OnlyReply.plan (h : OnlyReply u t) : t.plan = u.plan := by rw [h.rest]
theorem OnlyReply.handed (h : OnlyReply u t) : t.handed = u.handed := by rw [h.rest]
theorem OnlyReply.sup (h : OnlyReply u t) : t.sup = u.sup := by rw [h.rest]
theorem OnlyReply.bus (h : OnlyReply u t) : t.bus = u.bus := by rw [h.rest]
theorem OnlyReply.store (h : OnlyReply u t) : t.store = u.store := by rw [h.rest]
theorem OnlyReply.repeater (h : OnlyReply u t) : t.repeater = u.repeater := by rw [h.rest]

theorem OnlyReply.refl : OnlyReply u u := ⟨rfl, rfl, rfl, rfl, fun _ => rfl⟩

theorem takeTx_onlyReply (u : State) : OnlyReply u (takeTx u) := by
  obtain ⟨v, hv, he, hb, _⟩ := takeTx_spec u
  rw [hv]
  refine ⟨rfl, ?_, rfl, rfl, fun h => by rw [hb h]; rfl⟩
  rw [he]; rfl

/-- The frame of one line's change, seen past the ports. -/
theorem OnlyLine.ports {l : Line} (h : OnlyLine l s u) (k : OnlyReply u t) : OnlyLine l s t where
  outside := k.outside.trans h.outside
  others m hm := (k.lineItems m).trans (h.others m hm)
  plan := k.plan.trans h.plan
  handed := k.handed.trans h.handed
  repeater := k.repeater.trans h.repeater
  store := k.store.trans h.store
  inFlight := by rw [k.bus]; exact h.inFlight
  modules := by rw [k.bus]; exact h.modules
  queue := by rw [k.bus]; exact h.queue
  captures := by rw [k.sup]; exact h.captures
  events m hm := by rw [k.events]; exact h.events m hm
  call := by rw [k.sup, k.lmu]; exact h.call

theorem Raised.ports {k : EventKind} {g : Tag} (h : Raised k g s u) (p : OnlyReply u t) (hx : u.vessel.tx = s.vessel.tx) :
    Raised k g s t :=
  ⟨by rw [p.events]; exact h.1, fun hv ht => by rw [p.vessel (hx ▸ ht)]; exact h.2 hv ht⟩

/-- The call after a notice, seen past the ports. -/
theorem CallFollows.ports (h : CallFollows l s u) (p : OnlyReply u t) (hx : u.vessel.tx = s.vessel.tx) : CallFollows l s t := by
  obtain ⟨k1, k2, k3, k4, k5⟩ := h
  obtain ⟨a, b, c, d, e, f⟩ := k2
  refine ⟨by rw [p.sup]; exact k1, ?_, by rw [p.sup]; exact k3, by rw [p.sup]; exact k4, by
    rw [p.sup]; exact fun z => (k5 z).ports p hx⟩
  unfold heldFast departHolds at *
  rw [p.sup, p.lmu]
  exact ⟨fun z => ⟨(a z).1, (a z).2.1.ports p hx, (a z).2.2⟩, b, fun y z => ⟨(c y z).1, (c y z).2.ports p hx⟩,
    fun y z => ⟨(d y z).1, (d y z).2.ports p hx⟩, fun y z => ⟨(e y z).1, (e y z).2.ports p hx⟩, f⟩

theorem Entered.ports {n : LineState} {r : Option Resume} {i : Intent} {x : Option StateTimer} (h : Entered l n r i x s u)
    (p : OnlyReply u t) (hx : u.vessel.tx = s.vessel.tx) : Entered l n r i x s t where
  state := by rw [p.lcu]; exact h.state
  resume_ := by rw [p.lcu]; exact h.resume_
  intent_ := by rw [p.lcu]; exact h.intent_
  timer_ := by rw [p.lcu]; exact h.timer_
  command := by unfold Commanded; rw [p.bus]; exact h.command
  lmuView := by rw [p.lmu]; exact h.lmuView
  detView := by rw [p.det]; exact h.detView
  regView := by rw [p.reg]; exact h.regView
  supView := by rw [p.sup]; exact h.supView
  latches := by rw [p.sup, p.lcu]; exact h.latches
  rate := by rw [p.lmu]; exact h.rate
  kept := by unfold Retained; rw [p.det]; exact h.kept
  call := h.call.ports p hx
  surges := by rw [p.sup]; exact h.surges
  event := h.event.ports p hx

/-- A command that is no request ends with the transmitter, and leaves requests and replies alone. -/
theorem running_event (f : State → State) (h : s.resetting = none) : whenRunning f s = takeTx (f s) := by
  simp [whenRunning, h]

theorem takeTx_sameTraffic (h : u.traffic = s.traffic) : s.sameTraffic (takeTx u) := by
  obtain ⟨v, hv, he, hb, _⟩ := takeTx_spec u
  have e1 : u.shore.slot = s.shore.slot := (congrArg Traffic.slot h :)
  have e2 : u.shore.collision = s.shore.collision := (congrArg Traffic.collision h :)
  have e3 : u.shore.overrun = s.shore.overrun := (congrArg Traffic.overrun h :)
  have e4 : u.shore.abandonedSeen = s.shore.abandonedSeen := (congrArg Traffic.abandonedSeen h :)
  have e5 : u.vessel.waiting = s.vessel.waiting := (congrArg Traffic.waiting h :)
  have e6 : u.vessel.replyPlace = s.vessel.replyPlace := (congrArg Traffic.replyPlace h :)
  have e7 : u.vessel.tx = s.vessel.tx := (congrArg Traffic.tx h :)
  have e8 : u.vessel.overrunFlag = s.vessel.overrunFlag := (congrArg Traffic.overrunFlag h :)
  rw [hv]
  refine ⟨e1, e2, e3, e4, ?_, fun hx => ?_⟩
  · show v.waiting = _; rw [he]; exact e5
  · have := hb (e7 ▸ hx)
    show v.tx = _ ∧ v.replyPlace = _ ∧ v.overrunFlag = _
    rw [this]; exact ⟨e7, e6, e8⟩

/-! ## Owners leave the ports' traffic -/

theorem owner_traffic (sender : Sender) (r : Request) (s : State) : (owner sender r s).1.traffic = s.traffic := by
  have ha : ∀ {a b : State}, a.around = b.around → a.traffic = b.traffic := traffic_of_around
  have hw : ∀ (b : Byte) (f : RecordName → State × Reply), (∀ q, (f q).1.traffic = s.traffic) →
      (withRecord b s f).1.traffic = s.traffic := by
    intro b f hf; unfold withRecord; split
    · rfl
    · exact hf _
  cases r <;> simp only [owner] <;> try rfl
  case lineCommand b c =>
    split
    · split
      · exact ha ((attachTaken_around _ _ _).trans (lineCommand_around _ _))
      · exact ha (lineCommand_around _ _)
    · rfl
  case tripAll => exact ha tripAll_around
  case planSubmit => exact ha (planSubmit_around _ _)
  case planHold => exact ha planHold_around
  case planResume => exact ha (planResume_around _)
  case planAbort => exact ha planAbort_around
  case bind => split <;> first | exact ha (bindCall_around _ _) | rfl
  case unbind => exact ha unbindCall_around
  case closeCall => exact ha closeByShore_around
  case readProfile => exact hw _ _ fun r => by unfold readProfile; dsimp only; (repeat' split) <;> rfl
  case writeProfile => exact hw _ _ fun r => by unfold writeProfile; dsimp only; (repeat' split) <;> rfl
  case lockProfile => exact hw _ _ fun r => by unfold lockProfile; dsimp only; (repeat' split) <;> rfl
  case commissionProfile => exact hw _ _ fun r => by unfold commissionProfile; dsimp only; (repeat' split) <;> rfl
  case verifyStore => unfold verifyStore; split <;> rfl
  case readLine => split <;> rfl
  case ackReset => unfold ackReset; split <;> rfl
  case setReporting => unfold setReporting; dsimp only; split <;> rfl

/-! ## A request served -/

theorem putResponse_onlyReply (f : ShoreFrame) (y : Reply) (u : State) : OnlyReply u (putResponse f y u) :=
  ⟨rfl, rfl, rfl, rfl, fun _ => rfl⟩

theorem OnlyReply.trans {v : State} (h : OnlyReply u t) (k : OnlyReply t v) (hx : u.vessel.tx ≠ .idle → t.vessel.tx ≠ .idle) :
    OnlyReply u v where
  rest := by rw [k.rest, h.rest]
  outside := k.outside.trans h.outside
  events := k.events.trans h.events
  attn := k.attn.trans h.attn
  vessel z := (k.vessel (hx z)).trans (h.vessel z)

/-- A request that is admitted is taken by its owner, and its sender given the owner's reply; the rest is as the owner left
it (R163, R169, R174). SOFT_RESET, which then resets the part, has its own law. -/
theorem request_served (sender : Sender) (r : Request) (h : admitted s sender r = true) (hr : r ≠ .softReset) :
    let x := owner sender r s
    OnlyReply x.1 (whenRunning (request sender r) s) ∧ Answered sender r x.2 s (whenRunning (request sender r) s) := by
  intro x
  simp only [admitted, Bool.and_eq_true, Option.isNone_iff_eq_none] at h
  obtain ⟨⟨h1, h2⟩, h3⟩ := h
  have ht : takeRequest sender true r s = x := by unfold takeRequest; rw [h3]
  have hx := owner_traffic sender r s
  have e1 : x.1.shore.slot = s.shore.slot := (congrArg Traffic.slot hx :)
  have e2 : x.1.shore.collision = s.shore.collision := (congrArg Traffic.collision hx :)
  have e3 : x.1.shore.overrun = s.shore.overrun := (congrArg Traffic.overrun hx :)
  have e4 : x.1.shore.abandonedSeen = s.shore.abandonedSeen := (congrArg Traffic.abandonedSeen hx :)
  have e5 : x.1.vessel.waiting = s.vessel.waiting := (congrArg Traffic.waiting hx :)
  have e6 : x.1.vessel.replyPlace = s.vessel.replyPlace := (congrArg Traffic.replyPlace hx :)
  have e7 : x.1.vessel.tx = s.vessel.tx := (congrArg Traffic.tx hx :)
  rw [running_event _ h1]
  cases sender with
  | shore =>
    have hq : request .shore r s = putResponse (ShoreFrame.of r) x.2 x.1 := by
      have ha : answerShore (ShoreFrame.of r) s = putResponse (ShoreFrame.of r) x.2 x.1 := by
        unfold answerShore
        rw [show takeRequest .shore (ShoreFrame.of r).formOk (ShoreFrame.of r).request s = x from ht]
        dsimp only
        simp only [decide_eq_true_eq, Bool.and_eq_true]
        rw [if_neg (fun hc => hr hc.1)]
      unfold request shoreRequest
      dsimp only
      split
      · rename_i f hf
        have : f = ShoreFrame.of r := by simpa [free, hf] using h2
        subst this
        exact (if_pos rfl).trans ha
      · exact ha
      · exact ha
    rw [hq]
    have hp := putResponse_onlyReply (ShoreFrame.of r) x.2 x.1
    refine ⟨hp.trans (takeTx_onlyReply _) (fun z => z), ?_⟩
    obtain ⟨v, hv, he, _, _⟩ := takeTx_spec (putResponse (ShoreFrame.of r) x.2 x.1)
    rw [hv]
    refine ⟨?_, rfl, rfl, rfl, ?_⟩
    · show Slot.ready _ = _
      simp only [e2, e3, e4]
    · show v.waiting = _
      rw [he]; exact e5
  | vessel code =>
    have hf : s.vessel.waiting = none ∧ s.vessel.replyPlace = none ∧ (s.vessel.tx ≠ .idle ∨ s.vessel.reportOwed = false) := by
      simpa [free, and_assoc] using h2
    obtain ⟨w1, w2, w3⟩ := hf
    let m : VesselMessage := ⟨code, vesselKind r, r, true⟩
    let p := s.setVessel { s.vessel with waiting := some m }
    have hpl : placeMessage m s = p := by unfold placeMessage; rw [w1]
    have ht1 : takeTx p = p := takeTx_settled (w3.imp (fun z => z) (fun z => ⟨w2, z⟩))
    have hs : p.setVessel { p.vessel with waiting := none } = s := by
      show { s with vessel := { s.vessel with waiting := none } } = s
      rw [← w1]
    let y := x.1.setVessel { x.1.vessel with
      replyPlace := some ⟨x.1.store.workingBerth.berthCode, code, replyKind (vesselKind r), x.2⟩ }
    have hd : decodeWaiting p = y := by
      unfold decodeWaiting
      have a1 : p.vessel.waiting = some m := rfl
      have a2 : p.vessel.replyPlace = none := w2
      rw [a1, a2]
      dsimp only
      rw [hs, show takeRequest (.vessel m.code) m.formOk m.request s = x from ht]
    have hq : request (.vessel code) r s = takeTx y := by
      show serveVessel (placeMessage m s) = _
      rw [hpl]; unfold serveVessel; rw [ht1, hd]
    rw [hq]
    have hpy : OnlyReply x.1 y := ⟨rfl, rfl, rfl, rfl, fun _ => rfl⟩
    by_cases hi : s.vessel.tx = .idle
    · have hty : takeTx y = x.1.setVessel { y.vessel with
          replyPlace := none, tx := .sending (.reply ⟨x.1.store.workingBerth.berthCode, code, replyKind (vesselKind r), x.2⟩) } := by
        unfold takeTx
        have b1 : y.vessel.tx = .idle := e7.trans hi
        have b2 : y.vessel.replyPlace = some ⟨x.1.store.workingBerth.berthCode, code, replyKind (vesselKind r), x.2⟩ := rfl
        dsimp only
        rw [b1, b2]
        rfl
      rw [hty, takeTx_busy (by simp)]
      refine ⟨⟨rfl, rfl, rfl, rfl, fun z => absurd (e7.trans hi) z⟩, ?_⟩
      unfold Answered
      dsimp only
      rw [if_pos hi]
      exact ⟨e5.trans w1, ⟨rfl, rfl⟩, e1, e2, e3, e4⟩
    · have hb : y.vessel.tx ≠ .idle := fun z => hi (e7.symm.trans z)
      rw [takeTx_busy hb, takeTx_busy hb]
      refine ⟨hpy, ?_⟩
      unfold Answered
      dsimp only
      rw [if_neg hi]
      exact ⟨e5.trans w1, ⟨e7, rfl⟩, e1, e2, e3, e4⟩

end Sys2Proof.Machine
end

