-- ==== Sys2Proof/Tests/Slice0.lean ====
section
/-! SUPPORT. Tests on fixed values, and for every statement a concrete state and operands that meet its hypotheses. Expected
values are the spec's worked cases, named by section, or hand computation from the rule named. -/

open Sys2Proof Sys2Proof.Machine

namespace Sys2Proof.Tests

set_option Elab.async false

/-! ## A small berth -/

/-- A Line Profile with the values of the worked cases of 1.11, 2.9, 4.11, 5.8, 5.9 and 6.8. -/
def prof : LineProfile := { (default : LineProfile) with
  enabled := true, autoZero := false, autoRewind := true, driveAddress := 0x20, gateCode := 5, betaF := 2, betaR := 6
  zero16 := 64000, span := 1280, zeroBand := 50, targetMin := 500, targetDefault := 2400, targetMax := 2800
  renderLimit := 3000, renderHyst := 32, slackRatio := 192, surgeThreshold := 150, surgeHyst := 64, debounceIn := 3
  debounceOut := 2, haltThreshold := 60, haltLimit := 120, releaseTension := 200, snagLimit := 800
  kr := 32, i := 8, f := 600, d := 2048, vMax := 1500, vStop := 50, allowance := 600, stepUm := 500, payoutMax := 0
  softZone := 150, haulSpeed := 400, recoverSpeed := 300, easeSpeed := 200, rewindSpeed := 500, softSpeed := 100
  attachLimit := 60, tensionLimit := 30, easeLimit := 20, latchLimit := 5, rewindLimit := 90 }

/-- The profile's bytes 0 to 77 (R186). -/
def profBytes : List Byte :=
  [0x05, 0x20, 0x05, 0x62, 0x00, 0x00, 0xFA, 0x00, 0x05, 0x00, 0x00, 0x32, 0x01, 0xF4, 0x09, 0x60, 0x0A, 0xF0, 0x0B, 0xB8,
   0x20, 0xC0, 0x00, 0x96, 0x40, 0x23, 0x00, 0x3C, 0x00, 0x78, 0x00, 0xC8, 0x03, 0x20, 0x20, 0x08, 0x02, 0x58, 0x08, 0x00,
   0x05, 0xDC, 0x00, 0x32, 0x02, 0x58, 0x01, 0xF4, 0x00, 0x00, 0x00, 0x96, 0x01, 0x90, 0x01, 0x2C, 0x00, 0xC8, 0x01, 0xF4,
   0x00, 0x64, 0x00, 0x3C, 0x1E, 0x14, 0x05, 0x00, 0x5A, 0, 0, 0, 0, 0, 0, 0, 0, 0]

/-- Some message on the transmitter, and a reply in the place behind it. -/
def aReply : VesselReply := ⟨0, 7, 0x84#8, ⟨.ok, .empty⟩⟩

/-- A berth in an open call of the vessel 7, every line assigned and in one state, at T_f 2460 and Ref 2455, both masters
acknowledged, the ramp clear, a transmission under way. -/
def berth (st : LineState) : State := { State.reset with
  lmu := Lines.const { LmuChannel.reset with
    gate := .counting, gUsed := 64, deadline := some 50, sampleTimer := some 10, rateClass := some .watch, seeded := true
    fAcc := 629760, rAcc := 628580, workingZero16 := 64000, stateView := st, assignedView := true }
  det := Lines.const { DetectorChannel.reset with stateView := st }
  drum := Lines.const { DrumChannel.reset .q0 with referenced := true }
  lcu := Lines.const { LcuChannel.reset with state := st, workingTarget := 2400, panel := ⟨false, false, true⟩ }
  reg := Lines.const { RegulatorChannel.reset with
    stateView := st, rendering := st == .rendering, speed := if st = .rendering then 240 else 0, allowance := 1200
    half := 600 }
  plan := { PlanRecord.reset with panelRampClear := true }
  sup := { State.reset.sup with
    call := ⟨.moored, some 7, 1, Lines.const true, 0, 0, some 0⟩, rampClear := ⟨true, none⟩
    view := Lines.const ⟨st, some .rest, some .opened, false, false, false⟩ }
  shore := { ShorePort.reset with acked := true }
  vessel := { VesselPort.reset 1000 with acked := true, tx := .sending (.reply aReply) }
  store := { ProfileStore.reset with working := Lines.const (some prof) } }

/-- The berth with Line 0's LCU channel changed. -/
def lcu0 (st : LineState) (f : LcuChannel → LcuChannel) : State :=
  { berth st with lcu := (berth st).lcu.set .l0 (f ((berth st).lcu.get .l0)) }

/-- The berth with Line 0's tension at `t`, and its counters and surge counter changed. -/
def loaded (st : LineState) (t : Int) (f : DetectorChannel → DetectorChannel) : State :=
  { berth st with
    lmu := (berth st).lmu.set .l0 { (berth st).lmu.get .l0 with fAcc := t * 256 }
    det := (berth st).det.set .l0 (f ((berth st).det.get .l0)) }

/-- The berth with Line 0's LMU channel changed. -/
def lmu0 (st : LineState) (f : LmuChannel → LmuChannel) : State :=
  { berth st with lmu := (berth st).lmu.set .l0 (f ((berth st).lmu.get .l0)) }

/-- The berth with the program of a record in flight. -/
def programming (st : LineState) (p : Programming) : State :=
  { berth st with store := { (berth st).store with programming := p } }

/-- The berth with its call closed. -/
def idleCall (st : LineState) : State :=
  { berth st with sup := { (berth st).sup with call := CallRecord.reset } }

/-- The berth with panel inputs standing and settling so. -/
def panel (level raw : Bool) : State :=
  { berth .holding with
    pins := { Pins.reset with trip := raw, stop := raw, rampClear := raw }
    sup := { (berth .holding).sup with
      trip := ⟨level, some 0⟩, stop := ⟨level, some 0⟩, rampClear := ⟨level, some 0⟩ } }

/-- The berth with the Vessel Port's assembler holding bytes. -/
def assembling (bytes : List Byte) : State :=
  { berth .holding with vessel := { (berth .holding).vessel with
      assembler := .assembling bytes, gapTimer := some 5, replyPlace := some aReply } }

/-- The berth with the Vessel Port's transmitter IDLE. -/
def quietTx : State := { berth .holding with vessel := { (berth .holding).vessel with tx := .idle } }

/-- The berth with Line 0's drum channel changed. -/
def drum0 (st : LineState) (f : DrumChannel → DrumChannel) : State :=
  { berth st with drum := (berth st).drum.set .l0 (f ((berth st).drum.get .l0)) }

/-- The berth with a transaction for Line 0 in flight. -/
def flying (st : LineState) (k : RecordKind) (failures : Nat) : State :=
  { berth st with bus := { DriveBus.reset with
      activity := .transaction, stuckTimer := some 25, modules := Lines.const ⟨failures, .none⟩
      inFlight := some ⟨⟨.l0, k, false⟩, 0x20, .start, busBuffer k, true⟩ } }

/-- Line 0 alone, and Lines 1 and 2. -/
def only0 : LineSet := ⟨true, false, false, false, false, false, false, false⟩
def lines12 : LineSet := ⟨false, true, true, false, false, false, false, false⟩

/-- The berth with a plan of two steps: Line 0 let go by EASE, then Lines 1 and 2 tripped after 4 half-seconds. -/
def planned (st : LineState) (p : PlanState) (phase : StepPhase) : State :=
  { berth st with plan := { PlanRecord.reset with
      state := p, owner := some .shore, steps := [⟨only0, 0, .ease⟩, ⟨lines12, 4, .trip⟩], current := some 1
      phase := some phase, delayRunning := phase == .delay && p == .running, stepTimer := some 60000
      panelRampClear := true } }

/-- The intent of a state in the table of R61 by the profile above, of a line HALTED with its latch held. -/
def intentIn : LineState → Option Intent
  | .disabled => none
  | .adopting => none
  | .stowed => some ⟨.apply, .stop, 0, .rest, false⟩
  | .attaching => some ⟨.drag, .stop, 0, .arm, false⟩
  | .tensioning => some ⟨.release, .haul, 400, .hold, false⟩
  | .holding => some ⟨.apply, .stop, 0, .hold, false⟩
  | .rendering => some ⟨.modulate, .stop, 240, .hold, false⟩
  | .recovering => some ⟨.release, .haul, 300, .hold, false⟩
  | .easing => some ⟨.modulate, .stop, 200, .hold, false⟩
  | .unlatching => some ⟨.apply, .stop, 0, .release, false⟩
  | .slackOut => some ⟨.apply, .stop, 0, .rest, false⟩
  | .rewinding => some ⟨.release, .haul, 100, .rest, false⟩
  | .tripped => some ⟨.apply, .stop, 0, .release, true⟩
  | .halted => some ⟨.apply, .stop, 0, .hold, false⟩
  | .fault => some ⟨.apply, .stop, 0, .hold, false⟩

/-- The berth with Line 0 in one state and the other lines in another, every block told of it, and the call in a phase. -/
def told (zero rest : LineState) (phase : CallPhase) : State :=
  let b := berth rest
  let st (l : Line) : LineState := if l = .l0 then zero else rest
  { b with
    lmu := b.lmu.imap fun l c => { c with stateView := st l, rateClass := classOf (st l) false false }
    det := b.det.imap fun l c => { c with stateView := st l }
    reg := b.reg.imap fun l c => { c with stateView := st l }
    lcu := b.lcu.imap fun l c => { c with
      state := st l, intent := intentIn (st l), resume := if st l = .halted then some .easing else none }
    sup := { b.sup with
      call := { b.sup.call with phase := phase, timeMs := 12000 }
      view := Lines.ofFn fun l => ⟨st l, (intentIn (st l)).map (·.latch), none, false, false, false⟩ } }

/-- The same berth during an adoption, no call open yet. -/
def adoptingWith (rest : LineState) : State :=
  let b := told .adopting rest .idle
  { b with
    lmu := b.lmu.imap fun _ c => { c with assignedView := false }
    sup := { b.sup with call := CallRecord.reset, adoptionComplete := false } }

/-- A state with a STATUS for Line 0 in flight. -/
def asking (s : State) : State := { s with bus := (flying .holding .status 0).bus }

/-- A state with the apply of Line 0's stored profile pending, its enabled option set or clear. -/
def waitingApply (on : Bool) (s : State) : State :=
  let r : StoredRecord := ⟨if on then profBytes else 0#8 :: profBytes.drop 1, true⟩
  { s with store := { s.store with
    stored := { s.store.stored with lines := s.store.stored.lines.set .l0 r }
    applyPending := { s.store.applyPending with lines := only0 } } }

/-- A state with a plan: Line 0 let go by EASE, then Lines 1 and 2 tripped at once. -/
def planning (s : State) (p : PlanState) (phase : StepPhase) : State :=
  { s with plan := { (planned .holding p phase).plan with steps := [⟨only0, 0, .ease⟩, ⟨lines12, 0, .trip⟩] } }

theorem agrees_of {s : State}
    (h : (callTimely s && Line.all.all fun l => intentFits s l && viewsAgree s l && viewFollows s l) = true) : blocksAgree s := by
  simp only [Bool.and_eq_true, List.all_eq_true] at h
  exact ⟨h.1, fun l => have := h.2 l (by cases l <;> decide); ⟨this.1.1, this.1.2, this.2⟩⟩

/-- The outcome is a next state with a property. -/
def gives (o : Host.Outcome State Fault Refusal) (p : State → Bool) : Bool :=
  match o with
  | .next t => p t
  | .fault _ => false
  | .refused _ => false

/-! ## WellFormed (each check refuses an ill-formed command) -/

theorem test_wellFormed_accepts : (Instr.goodSample .l0 1#24).wellFormed = true
    ∧ (Instr.writeProfile .shore 0 profBytes).wellFormed = true
    ∧ (Instr.writeProgrammingEnd (List.replicate 80 0)).wellFormed = true := by decide +kernel

theorem test_wellFormed_refuses_no_ticks : (Instr.goodSample .l0 0#24).wellFormed = false := by decide +kernel

theorem test_wellFormed_refuses_77_bytes :
    (Instr.writeProfile .shore 0 (List.replicate 77 0)).wellFormed = false := by decide +kernel

theorem test_wellFormed_refuses_a_frame_of_another_length :
    (Instr.frameRelease 96 false [0x12]).wellFormed = false := by decide +kernel

theorem test_wellFormed_refuses_79_bytes_read_back :
    (Instr.writeProgrammingEnd (List.replicate 79 0)).wellFormed = false := by decide +kernel

/-! ## The worked cases -/

/-- 1.11: F16 71,999, T_raw 2499, F_acc 632,256, delta 14, R_acc 628,634. -/
theorem test_worked_tension :
    (fun r : LmuChannel × Sample => (r.1.f16, r.1.tRaw, r.1.fAcc, r.1.tF, r.2.delta, r.1.rAcc))
        (((berth .holding).lmu.get .l0).goodSample prof 113778)
      = (71999, 2499, 632256, 2469, 14, 628634) := by decide +kernel

/-- 1.11, the ACTIVE class: 14,222 ticks of 8 periods give 2500, 14,223 give 2498. -/
theorem test_worked_active_gate :
    (rawTension (frequencyOf 8 14222) 64000 1280, rawTension (frequencyOf 8 14223) 64000 1280) = (2500, 2498) := by
  decide +kernel

/-- 2.9, S8, S9 and S13: the third agreeing sample confirms the start; 145 breaks the end's run; the second within 112 confirms it. -/
theorem test_worked_surge :
    (countSurge prof 225 false 2, countSurge prof 145 true 0, countSurge prof 35 true 1)
      = ((0, true), (0, false), (0, true)) := by decide +kernel

/-- 5.8: 240, then 150 at 3040, 65 at 2950, and 0 at 2700 (held at Vstop). -/
theorem test_worked_render :
    (regulatedSpeed prof 240 3040, regulatedSpeed prof 150 2950, regulatedSpeed prof 65 2700) = (150, 65, 0) := by
  decide +kernel

/-- 5.8, "A line at its limit": a confirmation at T_f 20000 demands 34,000. -/
theorem test_render_demand : renderDemand prof 20000 = 34000 := by decide +kernel

/-- 3.8: from Q2 to Q0 with 14 errors the position stays and the count is 15. -/
theorem test_encoder_illegal :
    gives (exec (.encoderChange .l0 false false)
        (drum0 .rendering fun d => { d with decoder := .q2, position := 1001, errorCount := 14 }))
      (fun t => (t.drum.get .l0).position == 1001 && (t.drum.get .l0).errorCount == 15
        && t.stateOf .l0 == .rendering) = true := by decide +kernel

/-- 3.10: a step to 4160 at 20 steps a unit crosses into band 208 and adds one. -/
theorem test_encoder_crosses_a_unit :
    gives (exec (.encoderChange .l0 true false)
        { drum0 .holding (fun d => { d with position := 4159 }) with repeater := ⟨some .l0, 20, some 207, 0, .q0, 50⟩ })
      (fun t => t.repeater.band == some 208 && t.repeater.pendingCount == 1 && t.repeater.output == .q0) = true := by
  decide +kernel

/-- 3.10: the expiry at 35 ms takes the count from 2 to 1 and the output from Q0 to Q1. -/
theorem test_flank_expiry :
    gives (exec .flankExpiry { berth .holding with repeater := ⟨some .l0, 20, some 209, 2, .q0, 0⟩ })
      (fun t => t.repeater.pendingCount == 1 && t.repeater.output == .q1) = true := by decide +kernel

/-- 4.11, 0 s: ATTACHING with DRAG / STOP / 0 / ARM and 60 s. -/
theorem test_attach :
    gives (exec (.attach .shore 0) (berth .stowed))
      (fun t => t.stateOf .l0 == .attaching && (t.lcu.get .l0).intent == some ⟨.drag, .stop, 0, .arm, false⟩
        && (t.lcu.get .l0).timer == some ⟨.attach, 60000⟩ && (t.shore.events.lines.get .l0).lineState) = true := by
  decide +kernel

/-- 4.11, 18.2 s: a CLOSED latch starts the tensioning, RELEASE / HAUL / 400 / HOLD and 30 s. -/
theorem test_status_closed_while_attaching :
    gives (exec (.statusComplete ⟨0, 1, 0, 0, 0, 0⟩) (flying .attaching .status 0))
      (fun t => t.stateOf .l0 == .tensioning && (t.lcu.get .l0).intent == some ⟨.release, .haul, 400, .hold, false⟩
        && (t.lcu.get .l0).timer == some ⟨.tension, 30000⟩) = true := by decide +kernel

/-- 11.4, 15.7 ms: a fresh MOVING latch leaves the line ADOPTING with its latch timer at 5 s. -/
theorem test_status_moving_while_adopting :
    gives (exec (.statusComplete ⟨0, 2, 0, 0, 0, 0⟩)
        { flying .adopting .status 0 with lcu := (lcu0 .adopting fun c => { c with freshSample := true }).lcu })
      (fun t => t.stateOf .l0 == .adopting && (t.lcu.get .l0).timer == some ⟨.latch, 5000⟩) = true := by decide +kernel

/-- 4.11, "A CANCEL": under STOP the halted line stays, its resume state is REWINDING, and no COMMAND is queued. -/
theorem test_cancel_under_stop :
    gives (exec (.cancel .shore 0) (lcu0 .halted fun c => { c with
        resume := some .attaching, intent := some ⟨.apply, .stop, 0, .rest, false⟩, panel := ⟨true, false, true⟩ }))
      (fun t => t.stateOf .l0 == .halted && (t.lcu.get .l0).resume == some .rewinding && t.bus.queue == []) = true := by
  decide +kernel

/-- 4.11, 55.0 s: RESUME starts TENSIONING with the tension timer at its full 30 s. -/
theorem test_resume :
    gives (exec (.resume (.vessel 7) 0)
        (lcu0 .halted fun c => { c with resume := some .tensioning }))
      (fun t => t.stateOf .l0 == .tensioning && (t.lcu.get .l0).timer == some ⟨.tension, 30000⟩) = true := by decide +kernel

/-- 4.12, 5.0 s: the latch timer's expiry on a latch last sensed CLOSED: FAULT LATCH_STUCK with latch HOLD, a normal COMMAND. -/
theorem test_latch_stuck :
    gives (exec (.latchStuck .l0) (lcu0 .tripped fun c => { c with
        timer := some ⟨.latch, 0⟩, lastStatus := some ⟨0, .closed, false, 0, 0, 0, false⟩ }))
      (fun t => t.stateOf .l0 == .fault && (t.lcu.get .l0).faultCause == some .latchStuck
        && t.bus.queue == [⟨.l0, .command ⟨.apply, .stop, 0, .hold, false⟩, false⟩] && t.sup.faultCount == 1) = true := by
  decide +kernel

/-- 4.12, 9.0 s: TRIP from FAULT: TRIPPED, no cause, an urgent COMMAND, the latch timer at 5 s. -/
theorem test_trip_from_fault :
    gives (exec (.trip .shore 0) (lcu0 .fault fun c => { c with faultCause := some .latchStuck }))
      (fun t => t.stateOf .l0 == .tripped && (t.lcu.get .l0).faultCause == none
        && (t.lcu.get .l0).timer == some ⟨.latch, 5000⟩
        && t.bus.queue == [⟨.l0, .command ⟨.apply, .stop, 0, .release, true⟩, true⟩]) = true := by decide +kernel

/-- The Shore Port's slot holds the reply. -/
def replied (s : State) (y : Reply) : Bool := match s.shore.slot with | .ready r => r.reply == y | _ => false

/-- R108 by hand: 3000 is clamped to the maximum of 2800. -/
theorem test_set_target_clamps :
    gives (exec (.setTarget .shore 0 3000) (berth .stowed))
      (fun t => (t.lcu.get .l0).workingTarget == 2800
        && replied t ⟨.ok, .target 2800⟩) = true := by decide +kernel

/-- 6.9: delays 10 and 300 are used as 10 and 120; the first delay is 5 s. -/
theorem test_plan_submit_delays :
    gives (exec (.planSubmit .shore [⟨only0, 10, .ease⟩, ⟨lines12, 300, .ease⟩]) (berth .holding))
      (fun t => t.plan.state == .running && t.plan.delayRemaining == 5000
        && replied t ⟨.ok, .delays [10, 120]⟩
        && t.sup.call.phase == .lettingGo) = true := by decide +kernel

/-- R113: a RELEASE of the other master taken just before the mark takes its line to EASING, the mark stands after it, and the
plan holds LINE_NOT_READY at the issue check (R115). R69: with the mark standing the RELEASE is refused. -/
theorem test_release_before_the_mark :
    let s := planned .holding .running .delay
    let coming := { s with lcu := s.lcu.imap fun _ c => { c with markComing := true } }
    gives (exec (.release (.vessel 7) 0) coming)
      (fun t => t.stateOf .l0 == .easing
        && gives (exec .stepDelayExpiry (takeMark .l0 t)) (fun u => (u.lcu.get .l0).planMark
          && u.plan.state == .held && u.plan.holdCause == some .lineNotReady)) = true
    ∧ gives (exec (.release (.vessel 7) 0) (takeMark .l0 coming))
      (fun t => t.stateOf .l0 == .holding
        && t.vessel.replyPlace.any fun r => r.reply == ⟨.lineInPlan, .empty⟩) = true := by decide +kernel

/-- R116, R120: the RELEASE of an issued step, still on its way, meets a STOP activation, a RAMP_CLEAR release or a master's TRIP.
The plan is HELD LINE_NOT_READY by the refusal where it was RUNNING; a plan that STOP held keeps its cause. -/
theorem test_issued_release_is_refused :
    let s := { planned .holding .running .issued with handed := [⟨.l0, .release⟩] }
    let settles (i : PanelInput) (t : State) := exec (.panelStabilityExpiry i) t
    let held (c : HoldCause) (t : State) := t.plan.state == .held && t.plan.holdCause == some c
    gives (settles .rampClear { s with sup := { s.sup with rampClear := ⟨true, some 0⟩ } })
      (fun t => t.plan.state == .running
        && held .lineNotReady (arrive ⟨.l0, .release⟩ t) && (arrive ⟨.l0, .release⟩ t).stateOf .l0 == .holding) = true
    ∧ gives (exec (.trip (.vessel 7) 0) s)
      (fun t => t.plan.state == .running
        && held .lineNotReady (arrive ⟨.l0, .release⟩ t) && (arrive ⟨.l0, .release⟩ t).handed.isEmpty) = true
    ∧ held .stop (arrive ⟨.l0, .release⟩ (seqPanel true true true
        { s with lcu := s.lcu.imap fun _ c => { c with panel := ⟨true, false, true⟩ } })) = true
    ∧ held .lineNotReady (takeStoppable
        { s with lcu := s.lcu.imap fun _ c => { c with panel := ⟨true, false, true⟩ } }) = true := by decide +kernel

/-- 6.9: PLAN_HOLD with 3000 ms left keeps them. -/
theorem test_plan_hold :
    gives (exec (.planHold (.vessel 7)) { planned .holding .running .delay with
        plan := { (planned .holding .running .delay).plan with delayRemaining := 3000 } })
      (fun t => t.plan.state == .held && t.plan.holdCause == some .holdRequest && t.plan.delayRemaining == 3000
        && !t.plan.delayRunning) = true := by decide +kernel

/-- 6.8, 30.0 s: PLAN_RESUME from the master that does not own the plan. -/
theorem test_plan_resume_not_owner :
    gives (exec (.planResume (.vessel 7)) (planned .holding .held .issued))
      (fun t => t.plan.state == .held && t.vessel.replyPlace.any fun r => r.reply == ⟨.notOwner, .empty⟩) = true := by
  decide +kernel

/-- 8.8, 295 µs: a COMMAND that fails ABSENT at count 0 goes back to the head of its band and the count to 1. -/
theorem test_transaction_absent :
    gives (exec (.transactionFailed .absent)
        { flying .holding (.command ⟨.apply, .stop, 0, .hold, false⟩) 0 with
          bus := { (flying .holding (.command ⟨.apply, .stop, 0, .hold, false⟩) 0).bus with
            queue := [⟨.l2, .status, false⟩] } })
      (fun t => t.bus.queue
          == [⟨.l0, .command ⟨.apply, .stop, 0, .hold, false⟩, false⟩, ⟨.l2, .status, false⟩]
        && (t.bus.modules.get .l0) == ⟨1, .absent⟩ && t.bus.activity == .idle) = true := by decide +kernel

/-- R151: a STATUS in its data phase can fail only by BUS_STUCK; one between its two address bytes can still be ABSENT, and no
longer INDEX_REFUSED. -/
theorem test_status_data_phase_is_not_refused :
    let at_ := fun phase : BusPhase => { flying .holding .status 0 with
      bus := { (flying .holding .status 0).bus with inFlight := some ⟨⟨.l0, .status, false⟩, 0x20, phase, [0x10], true⟩ } }
    [NoAck.absent, .indexRefused, .dataRefused].map (fun w => canFail w (at_ .data)) = [false, false, false]
    ∧ [NoAck.absent, .indexRefused, .dataRefused].map (fun w => canFail w (at_ .repeatedStart)) = [true, false, false] := by
  decide +kernel

/-- A frame of 96 bytes: its header, and no fields (R181). -/
def framed96 (kind line b2 b3 : Byte) : List Byte := [kind, line, b2, b3] ++ List.replicate 92 0

/-- R181 by hand: kind and line are bytes 0 and 1, byte 2 or 3 not 00H is no good form, and a request's line is byte 1 whatever its
kind's code. -/
theorem test_frame_header :
    (frameOf (framed96 0x12 5 0 0)).kind = 0x12 ∧ (frameOf (framed96 0x12 5 0 0)).line = 5
    ∧ (frameOf (framed96 0x12 5 1 0)).formOk = false ∧ (frameOf (framed96 0x12 5 0 0x80)).formOk = false
    ∧ requestInFrame 0x12 5 [] (.lineCommand 0 .release) = .lineCommand 5 .release := by decide +kernel

/-- 9.8, F3: a frame released while PENDING is lost to COLLISION, and the pending request stays. -/
theorem test_frame_collision :
    gives (exec (.frameRelease 96 false (framed96 0x12 0 0 0))
        { berth .holding with
          pins := { Pins.reset with selected := true }
          shore := { ShorePort.reset with slot := .pending ⟨0x11, 2, .readLine 2, true⟩, frameOut := some .notReady } })
      (fun t => t.shore.collision && t.shore.slot == .pending ⟨0x11, 2, .readLine 2, true⟩) = true := by decide +kernel

/-- 9.8, F4: a release after 40 bytes counts an abandoned frame from 3 to 4 and keeps the slot. -/
theorem test_frame_abandoned :
    gives (exec (.frameRelease 40 false ((framed96 0x12 0 0 0).take 40))
        { berth .holding with
          pins := { Pins.reset with selected := true }
          shore := { ShorePort.reset with slot := .empty, frameOut := some .noResponse, abandonedCount := 3 } })
      (fun t => t.shore.abandonedCount == 4 && t.shore.abandonedSeen && t.shore.slot == .empty) = true := by decide +kernel

/-- The check value of the CRC of R186 over the ASCII digits 1 to 9, known outside the spec, is 29B1H. -/
theorem test_crc16 : crc16 [0x31, 0x32, 0x33, 0x34, 0x35, 0x36, 0x37, 0x38, 0x39] = 0x29B1#16 := by decide +kernel

set_option maxRecDepth 100000 in
/-- R186: the bytes written out by hand from the layout read as the profile, and no field of them fails (R187). -/
theorem test_profile_layout :
    (profBytes.length, lineProfileOf profBytes == prof, lineProfileFailure State.reset .l0 profBytes) = (78, true, none) := by
  decide +kernel

set_option maxRecDepth 100000 in
/-- R192, R197: the reset state is what a POWER_ON and its completion leave of a part never programmed, one choice drawn. -/
theorem test_reset_is_a_completed_reset :
    completeReset (beginReset .powerOn State.reset) = { State.reset with choices := 1 } := by decide +kernel

/-- 9.2, R181: a filler is 96 bytes, all zero but its code; COLLISION and ABANDONED_SEEN are bits 0 and 2. -/
theorem test_filler_and_flags :
    FrameOut.notReady.bytes.length = 96 ∧ FrameOut.noResponse.bytes.take 3 = [0, 0, 0]
    ∧ FrameOut.noResponse.bytes.drop 4 = List.replicate 92 0
    ∧ (Response.flags ⟨0x12, 0, true, false, true, ⟨.ok, .empty⟩⟩) = 5 := ⟨rfl, rfl, rfl, by decide +kernel⟩

/-- R174: a reply's kind has 80H set, once. -/
theorem test_reply_kind : (replyKind 0x05, replyKind 0x85) = (0x85, 0x85) := by decide +kernel

/-- 5.8, R105: the step to 1200 of an allowance of 1200 ends the render in HOLDING with render inhibited. -/
theorem test_allowance_cut_off :
    gives (exec (.encoderChange .l0 true false) (drum0 .rendering fun d => { d with position := 1199 }))
      (fun t => t.stateOf .l0 == .holding && (t.lcu.get .l0).renderInhibited && !(t.reg.get .l0).rendering
        && (t.lcu.get .l0).lockPosition == 0) = true := by decide +kernel

/-- R44: the sixteenth error takes the reference away and the line to FAULT with cause ENCODER. -/
theorem test_encoder_sixteenth :
    gives (exec (.encoderChange .l0 true true) (drum0 .holding fun d => { d with errorCount := 15 }))
      (fun t => t.stateOf .l0 == .fault && (t.lcu.get .l0).faultCause == some .encoder
        && !(t.drum.get .l0).referenced) = true := by decide +kernel

/-- R157: a line of the bus that has stood low 25 ms brings BUS_STUCK. -/
theorem test_stuck_timer_expires :
    Instr.busStuck ∈ dueEvents { flying .holding .status 0 with
      bus := { (flying .holding .status 0).bus with stuckTimer := some 0 } } := by decide +kernel

/-- R147, R152: the byte of a latch that has arrived is the one decoded, here OPEN, whatever byte the command brings for it. -/
theorem test_status_bytes_in_buffer :
    sixBytes ⟨⟨.l0, .status, false⟩, 0x20, .data, [0x10, 0, 0], true⟩ ⟨1, 1, 1, 2, 3, 4⟩ = ⟨0, 0, 1, 2, 3, 4⟩ := by
  decide +kernel

/-- R49, R75, R189: a line that stays DISABLED takes the new target default, and floor(150 × 10000 / 500) steps of soft zone. -/
theorem test_apply_to_disabled :
    gives (exec (.writeProgrammingEnd (0#8 :: profBytes.drop 1))
        (programming .disabled (.write (.line .l0) (0#8 :: profBytes.drop 1))))
      (fun t => t.stateOf .l0 == .disabled && (t.lcu.get .l0).workingTarget == 2400
        && (t.drum.get .l0).softZoneSteps == 3000) = true := by decide +kernel

/-- R133: an ATTACH taken while the Depart condition holds is what a close of the other master may have been checked before. -/
theorem test_attach_before_close :
    gives (exec (.attach .shore 0) (berth .stowed)) (fun t => checkedBefore .vessel t && !checkedBefore .shore t) = true := by
  decide +kernel

/-- R133, R164: after the shore's CLOSE_CALL an ATTACH of the vessel of that call may have passed its port before; one of another
vessel, or one after the vessel's own UNBIND, has not. -/
theorem test_attach_overtaken :
    gives (exec (.closeCall .shore) (berth .stowed)) (fun t =>
      overtaken (.vessel 7) (.lineCommand 0 .attach) t && !overtaken (.vessel 9) (.lineCommand 0 .attach) t) = true
    ∧ gives (exec (.unbind 7) (berth .stowed)) (fun t => !overtaken (.vessel 7) (.lineCommand 0 .attach) t) = true := by
  decide +kernel

/-! ## Witnesses: the hypotheses of the statements can be met, clause by clause -/

theorem witness_EmptyQueue_in_a_reset : ∃ s : State, s.pending = [] ∧ s.resetting ≠ none :=
  ⟨{ State.reset with resetting := some .pin }, by decide +kernel⟩

theorem witness_EmptyQueue_nothing_due : ∃ s : State, s.pending = [] ∧ s.resetting = none ∧ s.handed = []
    ∧ (∀ l, (s.lcu.get l).markComing = false) ∧ ∀ i, ¬ dueNow s i := by
  refine ⟨State.reset, rfl, rfl, rfl, fun l => by cases l <;> rfl, fun i h => ?_⟩
  cases i <;> try dsimp only [dueNow] at h
  all_goals first
    | exact absurd h (by decide)
    | exact absurd h.2 (by decide)
    | (obtain ⟨_, h, -⟩ := h; exact absurd h nofun)
    | (rename_i x; cases x <;> exact absurd h (by decide))

theorem witness_EmptyQueue_due : ∃ s : State, s.pending = [] ∧ s.resetting = none ∧ ∃ i, dueNow s i :=
  ⟨{ State.reset with repeater := ⟨none, 0, none, 0, .q0, 0⟩ }, rfl, rfl, .flankExpiry, rfl⟩

/-- A mark on its way; a command on its way, and one behind the mark. -/
theorem witness_EmptyQueue_on_the_way : ∃ s u : State, s.pending = [] ∧ s.resetting = none ∧ u.pending = [] ∧ u.resetting = none
    ∧ (s.lcu.get .l0).markComing = true ∧ arriving s = [] ∧ s.handed ≠ []
    ∧ arriving u = [⟨.l0, .release⟩] ∧ u.handed = [⟨.l0, .release⟩, ⟨.l0, .trip⟩] :=
  let u := { planned .holding .running .issued with handed := [⟨.l0, .release⟩, ⟨.l0, .trip⟩] }
  ⟨{ u with lcu := u.lcu.imap fun _ c => { c with markComing := true } }, u, by decide +kernel⟩

/-- R128: a millisecond takes a hold timer from 3 to 2 ms and an open call's time from 12000 to 12001 ms; an IDLE call's stays. -/
theorem test_millisecond :
    gives (step { told .holding .holding .moored with
        lmu := (lmu0 .holding fun c => { c with holdTimer := some 3 }).lmu })
      (fun t => (t.lmu.get .l0).holdTimer == some 2 && t.sup.call.timeMs == 12001 && t.now == 1) = true
    ∧ gives (step (idleCall .holding)) (fun t => t.sup.call.timeMs == 0) = true := by decide +kernel

theorem witness_EveryCommandRunsAndKeepsTheQueue :
    ∃ (c : Instr) (s : State), s.resetting ≠ none ∧ c ≠ .powerOn ∧ c ≠ .pinReset ∧ c ≠ .resetCompletion :=
  ⟨.frameStart, { State.reset with resetting := some .pin }, by decide +kernel⟩

theorem witness_SupplyAndPinBeginAReset : ∃ (s : State) (bytes : List Byte),
    s.resetting = some .powerOn ∧ s.store.programming = .write (.line .l0) bytes
    ∧ ∀ b, s.store.programming ≠ .write .berth b :=
  ⟨{ programming .stowed (.write (.line .l0) []) with resetting := some .powerOn }, [], rfl, rfl, by rintro _ ⟨⟩⟩

theorem witness_ResetCompletionSetsTheBerth : ∃ s : State, s.resetting ≠ none :=
  ⟨{ State.reset with resetting := some .pin }, by decide +kernel⟩

theorem witness_SoftResetResetsThePart : ∃ (s : State) (bytes : List Byte),
    admitted s .shore .softReset = true ∧ s.store.programming = .write .berth bytes
    ∧ ∀ b, s.store.programming ≠ .write (.line .l0) b :=
  ⟨programming .stowed (.write .berth []), [], by decide +kernel, rfl, by rintro _ ⟨⟩⟩

theorem witness_GateAndHold_boundary : ∃ (s : State) (l : Line) (k : RateClass) (n : Nat), s.resetting = none
    ∧ (s.lmu.get l).sampleTimer = some n ∧ (s.lmu.get l).rateClass = some k ∧ (s.lmu.get l).gate = .idle :=
  ⟨lmu0 .holding fun c => { c with gate := .idle }, .l0, .watch, 10, by decide +kernel⟩

theorem witness_GateAndHold_deferred : ∃ (s : State) (l : Line) (k : RateClass) (n : Nat), s.resetting = none
    ∧ (s.lmu.get l).sampleTimer = some n ∧ (s.lmu.get l).rateClass = some k ∧ (s.lmu.get l).gate ≠ .idle :=
  ⟨berth .holding, .l0, .watch, 10, by decide +kernel⟩

theorem witness_GateAndHold_armed : ∃ (s : State) (l : Line), s.resetting = none ∧ (s.lmu.get l).gate = .armed :=
  ⟨lmu0 .holding fun c => { c with gate := .armed }, .l0, by decide +kernel⟩

theorem witness_GateAndHold_hold : ∃ (s : State) (l : Line), s.resetting = none ∧ (s.lmu.get l).holdTimer = some 0 :=
  ⟨lmu0 .holding fun c => { c with holdTimer := some 0 }, .l0, by decide +kernel⟩

theorem witness_SampleReadings_good : ∃ (s : State) (l : Line) (ticks : BitVec 24), s.resetting = none
    ∧ (s.lmu.get l).gate = .counting ∧ ticks.toNat ≠ 0 ∧ (s.lmu.get l).seeded = true :=
  ⟨berth .holding, .l0, 1#24, by decide +kernel⟩

theorem witness_SampleReadings_seeding : ∃ (s : State) (l : Line) (ticks : BitVec 24), s.resetting = none
    ∧ (s.lmu.get l).gate = .counting ∧ ticks.toNat ≠ 0 ∧ (s.lmu.get l).seeded = false :=
  ⟨lmu0 .adopting fun c => { c with seeded := false }, .l0, 16777215#24, by decide +kernel⟩

theorem witness_SampleReadings_third_miss : ∃ (s : State) (l : Line), s.resetting = none ∧ (s.lmu.get l).gate ≠ .idle
    ∧ min 255 ((s.lmu.get l).missCount + 1) = 3 ∧ s.stateOf l ≠ .disabled
    ∧ s.store.applyPending.lines.get l = false ∧ s.stateOf l ≠ .fault :=
  ⟨lmu0 .holding fun c => { c with gate := .armed, missCount := 2 }, .l0, by decide +kernel⟩

theorem witness_SampleReadings_overflow : ∃ (s : State) (l : Line), s.resetting = none ∧ (s.lmu.get l).gate = .counting
    ∧ min 255 ((s.lmu.get l).missCount + 1) = 255 :=
  ⟨lmu0 .holding fun c => { c with missCount := 255 }, .l0, by decide +kernel⟩

/-- A deferred start, of a good gate and of one that misses. -/
theorem witness_SampleReadings_deferred : ∃ (s : State) (l : Line), s.resetting = none ∧ (s.lmu.get l).gate = .counting
    ∧ (1#24 : BitVec 24).toNat ≠ 0 ∧ (s.lmu.get l).deferred = true ∧ (s.lmu.get l).rateClass ≠ none
    ∧ (s.lmu.get l).stateView ≠ .disabled ∧ s.store.applyPending.lines.get l = false :=
  ⟨lmu0 .holding fun c => { c with deferred := true }, .l0, by decide +kernel⟩

/-- Line 0's gate is COUNTING, and a good sample of some ticks, or a gate that ends without its periods, confirms nothing. -/
def unconfirming (s : State) (n : Option (BitVec 24)) : Bool :=
  let c := s.lmu.get .l0
  let d := s.det.get .l0
  let p := s.profile .l0
  let st := s.stateOf .l0
  let r := measured s .l0 (n.map (·.toNat))
  s.resetting == none && c.gate == .counting && n != some 0 && (n != none || c.missCount != 2) && c.stateView == st
  && d.stateView == st && (st != .adopting || (s.lcu.get .l0).freshSample)
  && (st != .rendering || !(s.reg.get .l0).rendering) && (!c.deferred || (c.rateClass != none && st != .disabled))
  && ([Condition.render, .slack, .target, .release, .snag].all fun k => !watches st k || !agrees s .l0 (r.1.fAcc / 256) k
      || (!d.active.get k && d.counters.get k + 1 != max 1 p.debounceIn))
  && (!inFamily st || !surgeAgrees s .l0 r.2
      || d.surgeCounter + 1 != max 1 (if d.surgeFlag then p.debounceOut else p.debounceIn))

/-- Such a sample meets the hypotheses of `UnconfirmingSampleIsMeasuredCountedAndPolled`. -/
theorem unconfirming_hypotheses (s : State) (n : Option (BitVec 24)) (h : unconfirming s n = true) :
    let c := s.lmu.get .l0
    let d := s.det.get .l0
    let p := s.profile .l0
    let st := s.stateOf .l0
    let r := measured s .l0 (n.map (·.toNat))
    s.resetting = none ∧ c.gate = .counting ∧ n ≠ some 0 ∧ (n = none → c.missCount ≠ 2)
    ∧ c.stateView = st ∧ d.stateView = st ∧ (st = .adopting → (s.lcu.get .l0).freshSample = true)
    ∧ (st = .rendering → (s.reg.get .l0).rendering = false) ∧ (c.deferred = true → c.rateClass ≠ none ∧ st ≠ .disabled)
    ∧ (∀ k, watches st k = true → agrees s .l0 (r.1.fAcc / 256) k = true →
        d.active.get k = false ∧ d.counters.get k + 1 ≠ max 1 p.debounceIn)
    ∧ (inFamily st = true → surgeAgrees s .l0 r.2 = true →
        d.surgeCounter + 1 ≠ max 1 (if d.surgeFlag then p.debounceOut else p.debounceIn)) := by
  simp only [unconfirming, Bool.and_eq_true, List.all_eq_true] at h
  obtain ⟨⟨⟨⟨⟨⟨⟨⟨⟨⟨a, b⟩, c⟩, d⟩, e⟩, f⟩, g⟩, i⟩, j⟩, k⟩, m⟩ := h
  refine ⟨by simpa using a, by simpa using b, by simpa using c, fun x => by simpa [x] using d, by simpa using e,
    by simpa using f, fun x => by simpa [x] using g, fun x => by simpa [x] using i, fun x => by simpa [x] using j, ?_,
    fun x y => by simpa [x, y] using m⟩
  intro q x y
  have := k q (by cases q <;> simp)
  simpa [x, y] using this

/-- Every state but ADOPTING before its fresh sample and a render in progress, with a good gate and with one that misses. -/
theorem witness_Unconfirming_states : ∀ st : LineState, st ≠ .rendering →
    unconfirming (lcu0 st fun c => { c with freshSample := true }) (some 113778#24) = true
    ∧ unconfirming (lcu0 st fun c => { c with freshSample := true }) none = true := by
  intro st h
  cases st <;> first | exact absurd rfl h | decide +kernel

/-- In HOLDING: a counted and a breaking run, the reference that follows by beta_r, and its withholding at the halt threshold and
under the surge flag, the hold timer idle; a deferred start. -/
theorem witness_Unconfirming_holding :
    (unconfirming (loaded .holding 3400 id) (some 100000#24) = true
      ∧ (counted (loaded .holding 3400 id) .l0 3397 942).counters.render = 1
      ∧ (counted (loaded .holding 3400 id) .l0 3397 942).surgeCounter = 1)
    ∧ (let s := loaded .holding 2460 fun d => { d with counters := { d.counters with render := 2 } }
       unconfirming s (some 113778#24) = true ∧ (counted s .l0 2469 14).counters.render = 0)
    ∧ ((measured (berth .holding) .l0 (some 113778)).1.rAcc = 628634)
    ∧ ((measured (loaded .holding 3400 id) .l0 (some 100000)).1.rAcc = 628580
      ∧ (measured (loaded .holding 3400 id) .l0 (some 100000)).1.holdTimer = some 120000)
    ∧ (unconfirming (lmu0 .holding fun c => { c with surgeView := true, deferred := true }) (some 113778#24) = true
      ∧ (measured (lmu0 .holding fun c => { c with surgeView := true }) .l0 (some 113778)).1.rAcc = 628580) := by
  decide +kernel

/-- A capture of a STOWED line: the sixteenth sample inside the zero band and outside it, one before, and a miss; and a miss of a
channel that is not seeded. -/
theorem witness_Unconfirming_capture : ∀ (n sum : Nat) (e : Option EventKind),
    (n, sum, e) = (15, 960000, some .zeroDone) ∨ (n, sum, e) = (15, 0, some .zeroError) ∨ (n, sum, e) = (14, 0, none) →
    let s := lmu0 .stowed fun c => { c with zeroCapture := some ⟨n, sum⟩ }
    unconfirming s (some 128000#24) = true ∧ (captured s .l0 true 64000).2.2 = e
    ∧ unconfirming s none = true ∧ (captured s .l0 false 64000).2.2 = some .zeroError
    ∧ unconfirming (lmu0 .stowed fun c => { c with seeded := false }) none = true := by
  rintro n sum e (h | h | h) <;> cases h <;> decide +kernel

/-- At net payout one below the allowance, and at it. -/
theorem witness_RenderConfirmationStartsOrInhibits : ∀ net : Int, net = 1199 ∨ net = 1200 →
    ∃ (s : State) (l : Line) (ticks : BitVec 24), sampleReady s l ticks = true ∧ s.stateOf l = .holding
      ∧ (s.det.get l).active.render = false ∧ (s.det.get l).counters.render + 1 = max 1 (s.profile l).debounceIn
      ∧ (s.lcu.get l).renderInhibited = false ∧ ((s.profile l).renderLimit : Int) ≤ nextTF s l ticks.toNat
      ∧ ((s.lcu.get l).workingTarget * (s.profile l).slackRatio / 256 : Nat) < nextTF s l ticks.toNat
      ∧ (s.drum.get l).position - (s.lcu.get l).lockPosition = net ∧ (s.reg.get l).allowance = 1200 := by
  rintro net (rfl | rfl)
  · exact ⟨{ loaded .holding 3400 (fun d => { d with counters := { d.counters with render := 2 } }) with
      drum := (drum0 .holding fun d => { d with position := 1199 }).drum }, .l0, 100000#24, by decide +kernel⟩
  · exact ⟨{ loaded .holding 3400 (fun d => { d with counters := { d.counters with render := 2 } }) with
      drum := (drum0 .holding fun d => { d with position := 1200 }).drum }, .l0, 100000#24, by decide +kernel⟩

/-- At net payout one above minus the allowance, and at it. -/
theorem witness_SlackConfirmationRecoversOrInhibits : ∀ net : Int, net = -1199 ∨ net = -1200 →
    ∃ (s : State) (l : Line) (ticks : BitVec 24), sampleReady s l ticks = true ∧ s.stateOf l = .holding
      ∧ (s.det.get l).active.slack = false ∧ (s.det.get l).counters.slack + 1 = max 1 (s.profile l).debounceIn
      ∧ (s.lcu.get l).recoverInhibited = false ∧ nextTF s l ticks.toNat < ((s.profile l).renderLimit : Int)
      ∧ nextTF s l ticks.toNat ≤ ((s.lcu.get l).workingTarget * (s.profile l).slackRatio / 256 : Nat)
      ∧ (s.drum.get l).position - (s.lcu.get l).lockPosition = net ∧ (s.reg.get l).allowance = 1200 := by
  rintro net (rfl | rfl)
  · exact ⟨{ loaded .holding 1000 (fun d => { d with counters := { d.counters with slack := 2 } }) with
      drum := (drum0 .holding fun d => { d with position := -1199 }).drum }, .l0, 125000#24, by decide +kernel⟩
  · exact ⟨{ loaded .holding 1000 (fun d => { d with counters := { d.counters with slack := 2 } }) with
      drum := (drum0 .holding fun d => { d with position := -1200 }).drum }, .l0, 125000#24, by decide +kernel⟩

theorem witness_Confirmations_target : ∀ st : LineState, st = .tensioning ∨ st = .recovering →
    ∃ (s : State) (l : Line) (ticks : BitVec 24), sampleReady s l ticks = true ∧ s.stateOf l = st
      ∧ (s.det.get l).active.get .target = false
      ∧ (s.det.get l).counters.get .target + 1 = max 1 (s.profile l).debounceIn
      ∧ ((s.lcu.get l).workingTarget : Int) ≤ nextTF s l ticks.toNat := by
  intro st h
  refine ⟨loaded st 2400 fun d => { d with counters := { d.counters with target := 2 } }, .l0, 100000#24, ?_⟩
  rcases h with rfl | rfl <;> decide +kernel

theorem witness_Confirmations_release : ∃ (s : State) (l : Line) (ticks : BitVec 24), sampleReady s l ticks = true
    ∧ s.stateOf l = .easing ∧ (s.det.get l).active.get .release = false
    ∧ (s.det.get l).counters.get .release + 1 = max 1 (s.profile l).debounceIn
    ∧ nextTF s l ticks.toNat ≤ ((s.profile l).releaseTension : Int) :=
  ⟨loaded .easing 100 fun d => { d with counters := { d.counters with release := 2 } }, .l0, 128000#24, by decide +kernel⟩

theorem witness_Confirmations_snag : ∃ (s : State) (l : Line) (ticks : BitVec 24), sampleReady s l ticks = true
    ∧ s.stateOf l = .rewinding ∧ (s.det.get l).active.get .snag = false
    ∧ (s.det.get l).counters.get .snag + 1 = max 1 (s.profile l).debounceIn
    ∧ ((s.profile l).snagLimit : Int) ≤ nextTF s l ticks.toNat ∧ outOfStep s l = true :=
  ⟨loaded .rewinding 900 fun d => { d with counters := { d.counters with snag := 2 } }, .l0, 100000#24, by decide +kernel⟩

/-- The last line of an ARRIVING call, whose lock makes it fast, and an assigned line of a MOORED one, which lets go (R132). -/
theorem witness_Confirmations_call : ∀ (old : LineState) (p : CallPhase) (k : Condition),
    (old, p, k) = (.tensioning, .arriving, .target) ∨ (old, p, k) = (.easing, .moored, .release) →
    ∃ (s : State) (ticks : BitVec 24), sampleReady s .l0 ticks = true ∧ s.stateOf .l0 = old
      ∧ (s.det.get .l0).active.get k = false ∧ (s.det.get .l0).counters.get k + 1 = max 1 (s.profile .l0).debounceIn
      ∧ agrees s .l0 (nextTF s .l0 ticks.toNat) k = true ∧ s.sup.adoptionComplete = true ∧ s.sup.call.phase = p
      ∧ s.sup.call.assigned = Lines.const true ∧ (s.sup.view.get .l1).state = .holding
      ∧ (s.sup.view.get .l7).state = .holding := by
  rintro old p k (h | h) <;> cases h
  · let b := told .tensioning .holding .arriving
    exact ⟨{ b with det := b.det.imap fun _ d => { d with counters := { d.counters with target := 2 } } }, 113778#24,
      by decide +kernel⟩
  · let b := told .easing .holding .moored
    exact ⟨{ b with
      lmu := b.lmu.imap fun _ c => { c with fAcc := 100 * 256 }
      det := b.det.imap fun _ d => { d with counters := { d.counters with release := 2 } } }, 128000#24, by decide +kernel⟩

/-- The three outcomes of 5.8's table: V 150 after 240 at 3040, Vstop at 2700, the end at 2600. -/
theorem witness_RenderIsRegulatedAndEnds : ∃ (s u v : State) (l : Line) (ticks : BitVec 24),
    (sampleReady s l ticks = true ∧ s.stateOf l = .rendering ∧ (s.reg.get l).rendering = true ∧ (s.profile l).i ≠ 0
      ∧ (s.profile l).vStop ≤ regulatedSpeed (s.profile l) (s.reg.get l).speed (nextTF s l ticks.toNat))
    ∧ (sampleReady u l ticks = true ∧ u.stateOf l = .rendering ∧ (u.reg.get l).rendering = true ∧ (u.profile l).i ≠ 0
      ∧ regulatedSpeed (u.profile l) (u.reg.get l).speed (nextTF u l ticks.toNat) < (u.profile l).vStop
      ∧ 2625 < nextTF u l ticks.toNat)
    ∧ (sampleReady v l ticks = true ∧ v.stateOf l = .rendering ∧ (v.reg.get l).rendering = true ∧ (v.profile l).i ≠ 0
      ∧ regulatedSpeed (v.profile l) (v.reg.get l).speed (nextTF v l ticks.toNat) < (v.profile l).vStop
      ∧ nextTF v l ticks.toNat ≤ 2625 ∧ 2 ≤ (v.profile l).debounceIn ∧ (v.det.get l).counters.render = 0
      ∧ (v.det.get l).counters.slack = 0) :=
  ⟨loaded .rendering 3040 id,
   { loaded .rendering 2700 id with reg := Lines.const ⟨.rendering, true, 65, 1200, 600, 0⟩ },
   { loaded .rendering 2600 id with reg := Lines.const ⟨.rendering, true, 50, 1200, 600, 0⟩ }, .l0, 113000#24, by decide +kernel⟩

theorem witness_Surge_start : ∃ (s : State) (l : Line) (ticks : BitVec 24), sampleReady s l ticks = true
    ∧ s.stateOf l = .holding ∧ s.sup.adoptionComplete = true ∧ (s.det.get l).surgeFlag = false
    ∧ (s.profile l).surgeThreshold ≤ (nextTF s l ticks.toNat - (s.lmu.get l).ref).natAbs
    ∧ (s.det.get l).surgeCounter + 1 = max 1 (s.profile l).debounceIn :=
  ⟨loaded .holding 2700 fun d => { d with surgeCounter := 2 }, .l0, 113000#24, by decide +kernel⟩

theorem witness_Surge_end : ∃ (s : State) (l : Line) (ticks : BitVec 24), sampleReady s l ticks = true
    ∧ s.stateOf l = .holding ∧ s.sup.adoptionComplete = true ∧ (s.det.get l).surgeFlag = true
    ∧ (nextTF s l ticks.toNat - (s.lmu.get l).ref).natAbs
      ≤ (s.profile l).surgeThreshold * (256 - (s.profile l).surgeHyst) / 256
    ∧ (s.det.get l).surgeCounter + 1 = max 1 (s.profile l).debounceOut :=
  ⟨loaded .holding 2455 fun d => { d with surgeFlag := true, surgeCounter := 1 }, .l0, 113778#24, by decide +kernel⟩

theorem witness_LegalChangeStepsThePosition : ∃ (s : State) (l : Line) (a b : Bool), s.resetting = none
    ∧ s.stateOf l ≠ .disabled ∧ (s.drum.get l).decoder = .q0 ∧ Quad.ofPins ⟨a, b⟩ = .q1
    ∧ (s.drum.get l).position = 2147483647 :=
  ⟨drum0 .holding fun d => { d with position := 2147483647 }, .l0, true, false, by decide +kernel⟩

/-- The step that reaches the allowance in RENDERING and in RECOVERING, and one in HOLDING within half of it with a flag set. -/
theorem witness_Legal_allowance : ∃ s u v : State,
    (s.stateOf .l0 = .rendering ∧ (s.reg.get .l0).rendering = true ∧ viewsAgree s .l0 = true
      ∧ (s.drum.get .l0).position + 1 - (s.lcu.get .l0).lockPosition = (s.reg.get .l0).allowance
      ∧ (s.reg.get .l0).half = 600)
    ∧ (u.stateOf .l0 = .recovering ∧ viewsAgree u .l0 = true
      ∧ (u.drum.get .l0).position - 1 - (u.lcu.get .l0).lockPosition = -((u.reg.get .l0).allowance : Int))
    ∧ (v.stateOf .l0 = .holding ∧ viewsAgree v .l0 = true ∧ (v.lcu.get .l0).renderInhibited = true
      ∧ (v.drum.get .l0).position - 1 - (v.lcu.get .l0).lockPosition = (v.reg.get .l0).half) :=
  ⟨drum0 .rendering fun d => { d with position := 1199 }, drum0 .recovering fun d => { d with position := -1199 },
   { drum0 .holding (fun d => { d with position := 601 }) with
     lcu := (lcu0 .holding fun c => { c with renderInhibited := true }).lcu }, by decide +kernel⟩

/-- The step past the payout maximum in RENDERING, ATTACHING and EASING. -/
theorem witness_Legal_payout : ∀ st : LineState, st = .rendering ∨ st = .attaching ∨ st = .easing →
    ∃ s : State, s.resetting = none ∧ s.stateOf .l0 = st ∧ viewsAgree s .l0 = true ∧ (s.drum.get .l0).referenced = true
      ∧ (st = .rendering → (s.reg.get .l0).rendering = true) ∧ (s.reg.get .l0).payoutMax = 20
      ∧ (s.drum.get .l0).position = 20 := by
  intro st h
  refine ⟨{ drum0 st (fun d => { d with position := 20 }) with
    reg := (berth st).reg.imap fun _ r => { r with payoutMax := 20 } }, ?_⟩
  rcases h with rfl | rfl | rfl <;> decide +kernel

/-- The step of a REWINDING line out of the soft zone, and the one into it (R50, R63). -/
theorem witness_Legal_soft_zone : ∀ soft : Bool, ∃ s : State, s.resetting = none ∧ s.stateOf .l0 = .rewinding
    ∧ viewsAgree s .l0 = true ∧ (s.drum.get .l0).softZone = soft
    ∧ gives (exec (.encoderChange .l0 soft (!soft)) s) (fun t => (t.drum.get .l0).softZone == !soft
      && (t.lcu.get .l0).intent.any fun i => i.speed == if soft then 500 else 100) = true := by
  intro soft
  refine ⟨drum0 .rewinding fun d => { d with
    position := if soft then 0 else 1, softZoneSteps := 0, softZone := soft, decoder := .q0 }, ?_⟩
  cases soft <;> decide +kernel

/-- The sixteenth error of a line in HOLDING, and of one in FAULT. -/
theorem witness_OtherEncoder_sixteenth : ∀ st : LineState, st = .holding ∨ st = .fault →
    ∃ s : State, s.resetting = none ∧ s.stateOf .l0 = st ∧ (s.drum.get .l0).decoder = .q0
      ∧ (s.drum.get .l0).errorCount = 15 ∧ s.store.applyPending.lines.get .l0 = false ∧ intentFits s .l0 = true := by
  intro st h
  refine ⟨{ drum0 st (fun d => { d with errorCount := 15 }) with
    lcu := (lcu0 st fun c => { c with intent := some ⟨.apply, .stop, 0, .hold, false⟩ }).lcu }, ?_⟩
  rcases h with rfl | rfl <;> decide +kernel

theorem witness_OtherEncoder_illegal : ∃ (s : State) (l : Line) (a b : Bool), s.resetting = none ∧ s.stateOf l ≠ .disabled
    ∧ (s.drum.get l).decoder = .q0 ∧ Quad.ofPins ⟨a, b⟩ = .q2 ∧ (s.drum.get l).errorCount = 16 :=
  ⟨drum0 .fault fun d => { d with errorCount := 16 }, .l0, true, true, by decide +kernel⟩

theorem witness_OtherEncoder_disabled : ∃ (s : State) (l : Line), s.resetting = none ∧ s.stateOf l = .disabled :=
  ⟨State.reset, .l0, by decide +kernel⟩

theorem witness_RepeaterFollowsUnitCrossings : ∃ (s : State) (l : Line) (a b : Bool), s.resetting = none
    ∧ s.stateOf l ≠ .disabled ∧ s.repeater.selected = some l ∧ s.repeater.unitSteps ≠ 0
    ∧ (s.drum.get l).referenced = true ∧ Quad.ofPins ⟨a, b⟩ = (s.drum.get l).decoder.next
    ∧ -2147483648 ≤ (s.drum.get l).position + 1 ∧ (s.drum.get l).position + 1 ≤ 2147483647 :=
  ⟨{ drum0 .holding (fun d => { d with position := 2147483646 }) with repeater := ⟨some .l0, 20, some 0, 1023, .q0, 50⟩ },
   .l0, true, false, by decide +kernel⟩

theorem witness_StationaryAndFlankExpiries : ∃ (s : State) (l : Line), s.resetting = none
    ∧ (s.drum.get l).stationaryTimer = some 0 :=
  ⟨drum0 .holding fun d => { d with stationaryTimer := some 0 }, .l0, by decide +kernel⟩

theorem witness_SelectRepeaterTakesTheLine : ∃ (s : State) (x : Option Byte) (l : Line),
    admitted s .shore (.selectRepeater x) = true ∧ some l = x.bind lineOfByte ∧ (s.store.working.get l).isSome = true
    ∧ (s.profile l).stepUm ≠ 0 :=
  ⟨berth .holding, some 7, .l7, by decide +kernel⟩

theorem witness_SelectRepeater_none : ∃ s : State, admitted s .shore (.selectRepeater none) = true :=
  ⟨berth .holding, by decide +kernel⟩

/-! Line commands -/

theorem witness_AttachSendsTheLineOut : ∀ st : LineState, st = .stowed ∨ st = .slackOut →
    ∃ (s : State) (sender : Sender) (b : Byte) (l : Line), lineOfByte b = some l
      ∧ admitted s sender (.lineCommand b .attach) = true ∧ (s.lcu.get l).planMark = false ∧ s.sup.call.phase ≠ .idle
      ∧ s.sup.call.assigned.get l = true ∧ (s.lcu.get l).panel.stop = false ∧ (s.lcu.get l).panel.trip = false
      ∧ s.stateOf l = st := by
  intro st h
  refine ⟨berth st, .vessel 7, 7, .l7, ?_⟩
  rcases h with rfl | rfl <;> decide +kernel

theorem witness_Cancel_attaching : ∃ (s : State) (sender : Sender) (b : Byte) (l : Line), lineOfByte b = some l
    ∧ admitted s sender (.lineCommand b .cancel) = true ∧ (s.lcu.get l).planMark = false
    ∧ s.stateOf l = .attaching ∧ (s.lcu.get l).panel.stop = false ∧ outOfStep s l = true :=
  ⟨berth .attaching, .shore, 0, .l0, by decide +kernel⟩

theorem witness_Cancel_halted : ∀ stop : Bool, ∃ (s : State) (sender : Sender) (b : Byte) (l : Line), lineOfByte b = some l
    ∧ admitted s sender (.lineCommand b .cancel) = true ∧ (s.lcu.get l).planMark = false ∧ s.stateOf l = .halted
    ∧ (s.lcu.get l).resume = some .attaching ∧ (s.lcu.get l).panel.stop = stop ∧ outOfStep s l = true := by
  intro stop
  cases stop
  · exact ⟨lcu0 .halted fun c => { c with resume := some .attaching }, .shore, 0, .l0, by decide +kernel⟩
  · exact ⟨lcu0 .halted fun c => { c with resume := some .attaching, panel := ⟨true, false, true⟩ }, .shore, 0, .l0,
      by decide +kernel⟩

theorem witness_ReleaseEasesTheLine : ∀ st : LineState, st = .holding ∨ st = .rendering ∨ st = .recovering →
    ∃ (s : State) (sender : Sender) (b : Byte) (l : Line), lineOfByte b = some l
      ∧ admitted s sender (.lineCommand b .release) = true ∧ (s.lcu.get l).planMark = false
      ∧ (s.lcu.get l).panel.rampClear = true ∧ (s.lcu.get l).panel.stop = false ∧ s.stateOf l = st
      ∧ viewsAgree s l = true ∧ s.sup.adoptionComplete = true ∧ s.sup.call.phase = .moored
      ∧ s.sup.call.assigned.get l = true := by
  intro st h
  refine ⟨berth st, .shore, 0, .l0, ?_⟩
  rcases h with rfl | rfl | rfl <;> decide +kernel

theorem witness_Rewind : ∃ (s : State) (sender : Sender) (b : Byte) (l : Line), lineOfByte b = some l
    ∧ (s.lcu.get l).planMark = false ∧ (s.lcu.get l).panel.stop = false ∧ outOfStep s l = true
    ∧ admitted s sender (.lineCommand b .rewind) = true ∧ s.stateOf l = .slackOut :=
  ⟨berth .slackOut, .shore, 0, .l0, by decide +kernel⟩

theorem witness_Resume : ∀ r : Resume, ∃ (s : State) (sender : Sender) (b : Byte) (l : Line), lineOfByte b = some l
    ∧ (s.lcu.get l).planMark = false ∧ (s.lcu.get l).panel.stop = false ∧ outOfStep s l = true
    ∧ admitted s sender (.lineCommand b .resume) = true ∧ s.stateOf l = .halted ∧ (s.lcu.get l).resume = some r := by
  intro r
  refine ⟨lcu0 .halted fun c => { c with resume := some r }, .shore, 0, .l0, ?_⟩
  cases r <;> decide +kernel

theorem witness_TripTakesTheLineToTripped : ∀ st : LineState, st ≠ .disabled →
    ∃ (s : State) (sender : Sender) (b : Byte) (l : Line), lineOfByte b = some l
      ∧ admitted s sender (.lineCommand b .trip) = true ∧ s.stateOf l = st := by
  intro st h
  refine ⟨berth st, .shore, 0, .l0, ?_⟩
  cases st <;> first | exact absurd rfl h | decide +kernel

theorem witness_SetTargetAndZeroChangeOneItem : ∃ (s : State) (b : Byte) (l : Line), lineOfByte b = some l
    ∧ (s.lcu.get l).planMark = false ∧ admitted s (.vessel 7) (.lineCommand b (.setTarget 65535)) = true
    ∧ admitted s .shore (.lineCommand b .zero) = true ∧ s.stateOf l = .stowed :=
  ⟨berth .stowed, 0, .l0, by decide +kernel⟩

theorem witness_RebaseMovesTheLock : ∀ st : LineState, st = .holding ∨ st = .rendering ∨ st = .recovering →
    ∃ (s : State) (b : Byte) (l : Line), lineOfByte b = some l ∧ admitted s .shore (.lineCommand b .rebase) = true
      ∧ (s.lcu.get l).planMark = false ∧ s.stateOf l = st ∧ (s.lcu.get l).renderInhibited = true := by
  intro st h
  refine ⟨lcu0 st fun c => { c with renderInhibited := true }, 0, .l0, ?_⟩
  rcases h with rfl | rfl | rfl <;> decide +kernel

theorem witness_ClearFaultAdoptsAgain : ∃ (s : State) (b : Byte) (l : Line), lineOfByte b = some l
    ∧ admitted s .shore (.lineCommand b .clearFault) = true ∧ (s.lcu.get l).planMark = false ∧ s.stateOf l = .fault :=
  ⟨berth .fault, 0, .l0, by decide +kernel⟩

theorem witness_LineRefused_marked : ∃ (s : State) (b : Byte) (l : Line), lineOfByte b = some l
    ∧ admitted s .shore (.lineCommand b .attach) = true ∧ (s.lcu.get l).planMark = true :=
  ⟨lcu0 .stowed fun c => { c with planMark := true }, 0, .l0, by decide +kernel⟩

theorem witness_LineRefused_attach : ∀ (stop trip : Bool), ∃ (s : State) (b : Byte) (l : Line), lineOfByte b = some l
    ∧ admitted s .shore (.lineCommand b .attach) = true ∧ (s.lcu.get l).planMark = false ∧ s.sup.call.phase ≠ .idle
    ∧ s.sup.call.assigned.get l = true ∧ (s.lcu.get l).panel.stop = stop ∧ (s.lcu.get l).panel.trip = trip
    ∧ s.stateOf l ≠ .stowed ∧ s.stateOf l ≠ .slackOut := by
  intro stop trip
  refine ⟨lcu0 .rewinding fun c => { c with panel := ⟨stop, trip, true⟩ }, 0, .l0, ?_⟩
  cases stop <;> cases trip <;> decide +kernel

theorem witness_LineRefused_unassigned : ∃ (s : State) (b : Byte) (l : Line), lineOfByte b = some l
    ∧ admitted s .shore (.lineCommand b .attach) = true ∧ (s.lcu.get l).planMark = false ∧ s.sup.call.phase = .idle :=
  ⟨idleCall .stowed, 0, .l0, by decide +kernel⟩

theorem witness_LineRefused_release : ∀ (stop clear : Bool), ∃ (s : State) (b : Byte) (l : Line), lineOfByte b = some l
    ∧ admitted s (.vessel 7) (.lineCommand b .release) = true ∧ (s.lcu.get l).planMark = false
    ∧ (s.lcu.get l).panel.stop = stop ∧ (s.lcu.get l).panel.rampClear = clear ∧ s.stateOf l = .easing := by
  intro stop clear
  refine ⟨lcu0 .easing fun c => { c with panel := ⟨stop, false, clear⟩ }, 0, .l0, ?_⟩
  cases stop <;> cases clear <;> decide +kernel

theorem witness_LineRefused_others : ∀ c : LineCommand, c = .cancel ∨ c = .rewind ∨ c = .resume ∨ c = .rebase ∨ c = .zero
    ∨ c = .clearFault → ∃ (s : State) (b : Byte) (l : Line), lineOfByte b = some l
      ∧ admitted s .shore (.lineCommand b c) = true ∧ (s.lcu.get l).planMark = false
      ∧ (s.lcu.get l).panel.stop = false ∧ s.stateOf l = .easing := by
  rintro c (rfl | rfl | rfl | rfl | rfl | rfl) <;> exact ⟨berth .easing, 0, .l0, by decide +kernel⟩

theorem witness_TripAllTripsEveryLine : ∀ p : PlanState, p = .running ∨ p = .held ∨ p = .none →
    ∃ (s : State) (l : Line), admitted s (.vessel 7) .tripAll = true ∧ s.plan.state = p ∧ s.stateOf l = .holding := by
  intro p h
  refine ⟨planned .holding p .issued, .l0, ?_⟩
  rcases h with rfl | rfl | rfl <;> decide +kernel

/-- Blocks that agree on a MOORED call with a line to trip, on a call without one, and during an adoption. -/
theorem witness_TripAll_call : ∃ s u v : State,
    (blocksAgree s ∧ admitted s .shore .tripAll = true ∧ s.sup.call.phase = .moored ∧ s.stateOf .l0 = .holding)
    ∧ (blocksAgree u ∧ admitted u .shore .tripAll = true ∧ u.sup.call.phase = .moored ∧ u.stateOf .l0 = .stowed)
    ∧ (blocksAgree v ∧ admitted v .shore .tripAll = true ∧ v.sup.adoptionComplete = false ∧ v.stateOf .l0 = .adopting) :=
  ⟨told .holding .holding .moored, told .stowed .stowed .moored, adoptingWith .holding,
   ⟨agrees_of (by decide +kernel), by decide +kernel⟩, ⟨agrees_of (by decide +kernel), by decide +kernel⟩,
   ⟨agrees_of (by decide +kernel), by decide +kernel⟩⟩

theorem witness_AttachAndEase_attach : ∃ (s : State) (l : Line), s.resetting = none ∧ s.stateOf l = .attaching
    ∧ (s.lcu.get l).timer = some ⟨.attach, 0⟩ ∧ outOfStep s l = true :=
  ⟨lcu0 .attaching fun c => { c with timer := some ⟨.attach, 0⟩ }, .l0, by decide +kernel⟩

theorem witness_AttachAndEase_ease : ∀ b : Bool, ∃ (s : State) (l : Line), s.resetting = none ∧ s.stateOf l = .easing
    ∧ (s.lcu.get l).timer = some ⟨.ease, 0⟩ ∧ outOfStep s l = b := by
  intro b
  cases b
  · exact ⟨{ planned .easing .running .issued with
      lcu := (lcu0 .easing fun c => { c with timer := some ⟨.ease, 0⟩ }).lcu }, .l0, by decide +kernel⟩
  · exact ⟨lcu0 .easing fun c => { c with timer := some ⟨.ease, 0⟩ }, .l0, by decide +kernel⟩

theorem witness_TimersThatFault : ∀ (st : LineState) (k : TimerKind),
    (st = .tensioning ∧ k = .tension) ∨ (st = .unlatching ∧ k = .latch) ∨ (st = .tripped ∧ k = .latch)
      ∨ (st = .rewinding ∧ k = .rewind) ∨ (st = .adopting ∧ k = .latch) →
    ∃ (s : State) (l : Line), s.resetting = none ∧ s.store.applyPending.lines.get l = false ∧ s.stateOf l = st
      ∧ (s.lcu.get l).timer = some ⟨k, 0⟩ ∧ s.sup.firstFault = none := by
  intro st k h
  refine ⟨lcu0 st fun c => { c with timer := some ⟨k, 0⟩ }, .l0, ?_⟩
  rcases h with ⟨rfl, rfl⟩ | ⟨rfl, rfl⟩ | ⟨rfl, rfl⟩ | ⟨rfl, rfl⟩ | ⟨rfl, rfl⟩ <;> decide +kernel

/-- A Line Profile whose apply is pending at the fault, its enabled option set or clear. -/
theorem witness_TimersThatFault_apply : ∀ on : Bool, ∃ s : State, s.resetting = none
    ∧ s.store.applyPending.lines.get .l0 = true
    ∧ (lineProfileOf (s.store.stored.lines.get .l0).bytes).enabled = on
    ∧ (lineProfileOf (s.store.stored.lines.get .l0).bytes).stepUm ≠ 0 ∧ s.stateOf .l0 = .tensioning
    ∧ (s.lcu.get .l0).timer = some ⟨.tension, 0⟩ := by
  intro on
  refine ⟨waitingApply on (lcu0 .tensioning fun c => { c with timer := some ⟨.tension, 0⟩ }), ?_⟩
  cases on <;> decide +kernel

/-! Plans -/

/-- A first step with no delay and one with the longest, in both modes. -/
theorem witness_SubmittedPlanStarts : ∀ (m : StepModeField) (d : Half), m ≠ .other → d = 0 ∨ d = 65535 →
    ∃ (s : State) (sender : Sender) (first : PlanStepField), admitted s sender (.planSubmit [first]) = true
      ∧ s.plan.state ≠ .running ∧ s.plan.state ≠ .held ∧ s.sup.call.phase = .moored ∧ s.sup.adoptionComplete = true
      ∧ s.plan.panelRampClear = true ∧ s.plan.panelStop = false ∧ goodStep s [] first ∧ first.mode = m ∧ first.delay = d
      ∧ ∀ l, first.lines.get l = true → (s.lcu.get l).panel.rampClear = true ∧ (s.lcu.get l).panel.stop = false := by
  intro m d hm _
  refine ⟨berth .holding, .shore, ⟨only0, d, m⟩, ?_, by decide +kernel, by decide +kernel, rfl, rfl, rfl, rfl,
    ⟨⟨.l0, rfl⟩, ?_, hm⟩, rfl, rfl, ?_⟩
  · cases m <;> rfl
  · intro l h; cases l <;> exact ⟨rfl, by simp, .inl rfl⟩
  · intro l h; cases l <;> exact ⟨rfl, rfl⟩

theorem witness_PlanSubmit_refused : ∃ s : State, admitted s .shore (.planSubmit []) = true
    ∧ (s.plan.state = .running ∨ s.plan.state = .held) :=
  ⟨planned .holding .running .delay, by decide +kernel⟩

theorem witness_PlanSubmit_no_call : ∃ s : State, admitted s .shore (.planSubmit []) = true
    ∧ s.plan.state = .none ∧ s.sup.call.phase = .idle :=
  ⟨idleCall .holding, by decide +kernel⟩

theorem witness_PlanSubmit_panel : ∀ stop clear : Bool, ∃ s : State, admitted s .shore (.planSubmit []) = true
    ∧ s.plan.state = .none ∧ s.sup.call.phase = .moored ∧ s.plan.panelRampClear = clear ∧ s.plan.panelStop = stop := by
  intro stop clear
  refine ⟨{ berth .holding with plan := { PlanRecord.reset with panelStop := stop, panelRampClear := clear } }, ?_⟩
  cases stop <;> cases clear <;> decide +kernel

/-- No step, nine steps, and a second step that names the first one's line again. -/
theorem witness_PlanSubmit_bad : ∃ s : State, admitted s .shore (.planSubmit []) = true ∧ s.plan.state = .none
    ∧ s.sup.call.phase = .moored ∧ s.plan.panelRampClear = true ∧ s.plan.panelStop = false
    ∧ (8 < (List.replicate 9 (⟨only0, 0, .ease⟩ : PlanStepField)).length)
    ∧ goodStep s [] ⟨only0, 0, .ease⟩ ∧ ¬ goodStep s [⟨only0, 0, .ease⟩] ⟨only0, 0, .trip⟩ := by
  refine ⟨berth .holding, by decide +kernel, rfl, rfl, rfl, rfl, by decide, ⟨⟨.l0, rfl⟩, ?_, by decide⟩, ?_⟩
  · intro l h; cases l <;> exact ⟨rfl, by simp, .inl rfl⟩
  · intro h
    have := (h.2.1 .l0 rfl).2.1 _ (List.mem_singleton.2 rfl)
    exact absurd this (by decide)

theorem witness_HoldAndAbortAct : ∀ p : PlanState, ∃ s : State, admitted s (.vessel 7) .planHold = true
    ∧ admitted s .shore .planAbort = true ∧ s.plan.state = p := by
  intro p
  refine ⟨planned .holding p .delay, ?_⟩
  cases p <;> decide +kernel

theorem witness_PlanResume_delay : ∃ (s : State) (st : PlanStep), admitted s .shore .planResume = true
    ∧ s.plan.current = some 1 ∧ s.plan.steps[0]? = some st ∧ s.plan.state = .held ∧ s.plan.owner = some .shore
    ∧ s.plan.panelStop = false ∧ s.plan.panelRampClear = true ∧ s.plan.phase = some .delay ∧ 0 < s.plan.delayRemaining
    ∧ s.stateOf .l0 = .holding :=
  ⟨{ planned .holding .held .delay with plan := { (planned .holding .held .delay).plan with delayRemaining := 1 } },
   ⟨only0, 0, .ease⟩, by decide +kernel⟩

theorem witness_PlanResume_done : ∃ (s : State) (st : PlanStep), admitted s .shore .planResume = true
    ∧ s.plan.current = some 2 ∧ s.plan.steps[1]? = some st ∧ s.plan.state = .held ∧ s.plan.owner = some .shore
    ∧ s.plan.panelStop = false ∧ s.plan.panelRampClear = true ∧ s.plan.phase = some .issued
    ∧ s.stateOf .l1 = .slackOut ∧ s.stateOf .l2 = .slackOut ∧ 1 + 1 = s.plan.steps.length :=
  ⟨{ planned .slackOut .held .issued with plan := { (planned .slackOut .held .issued).plan with current := some 2 } },
   ⟨lines12, 4, .trip⟩, by decide +kernel⟩

/-- Every line of the first step is clear, and the second has a delay, or none with its lines latched or not. -/
theorem witness_PlanResume_next : ∀ (delay : Nat) (st : LineState), delay = 4 ∨ delay = 0 → st = .holding ∨ st = .easing →
    ∃ (s : State) (next : PlanStep), admitted s .shore .planResume = true ∧ s.plan.state = .held
      ∧ s.plan.owner = some .shore ∧ s.plan.panelStop = false ∧ s.plan.panelRampClear = true ∧ s.plan.current = some 1
      ∧ s.plan.steps[0]? = some ⟨only0, 0, .ease⟩ ∧ s.stateOf .l0 = .stowed ∧ s.plan.phase = some .issued
      ∧ s.plan.steps[1]? = some next ∧ next.delay = delay ∧ next.lines = lines12 ∧ next.mode = .trip
      ∧ s.stateOf .l1 = st ∧ s.stateOf .l2 = st := by
  intro delay st hd hs
  refine ⟨{ planned st .held .issued with
      lcu := (berth st).lcu.set .l0 { (berth st).lcu.get .l0 with state := .stowed }
      plan := { (planned st .held .issued).plan with steps := [⟨only0, 0, .ease⟩, ⟨lines12, delay, .trip⟩] } },
    ⟨lines12, delay, .trip⟩, ?_⟩
  rcases hd with rfl | rfl <;> rcases hs with rfl | rfl <;> decide +kernel

/-- A step with a line HALTED in easing, and no STOP. -/
theorem witness_PlanResume_halted : ∃ (s : State) (st : PlanStep), admitted s .shore .planResume = true
    ∧ s.plan.current = some 1 ∧ s.plan.steps[0]? = some st ∧ st.lines.get .l0 = true ∧ s.plan.state = .held
    ∧ s.plan.owner = some .shore ∧ s.plan.panelStop = false ∧ s.plan.panelRampClear = true ∧ s.plan.phase = some .issued
    ∧ s.stateOf .l0 = .halted ∧ (s.lcu.get .l0).resume = some .easing ∧ (s.lcu.get .l0).panel.stop = false :=
  ⟨{ planned .halted .held .issued with lcu := (lcu0 .halted fun c => { c with resume := some .easing }).lcu },
   ⟨only0, 0, .ease⟩, by decide +kernel⟩

/-- A step whose only line is HALTED in rewinding, so that its RESUME lets the step advance. -/
theorem witness_PlanResume_halted_rewinding : ∃ (s : State) (st : PlanStep), admitted s .shore .planResume = true
    ∧ s.plan.current = some 1 ∧ s.plan.steps[0]? = some st ∧ st.lines = only0 ∧ s.plan.state = .held
    ∧ s.plan.owner = some .shore ∧ s.plan.panelStop = false ∧ s.plan.panelRampClear = true ∧ s.plan.phase = some .issued
    ∧ s.stateOf .l0 = .halted ∧ (s.lcu.get .l0).resume = some .rewinding ∧ (s.lcu.get .l0).panel.stop = false :=
  ⟨{ planned .halted .held .issued with lcu := (lcu0 .halted fun c => { c with resume := some .rewinding }).lcu },
   ⟨only0, 0, .ease⟩, by decide +kernel⟩

/-- PLAN_RESUME where there is no plan, and no current step. -/
theorem witness_PlanResume_no_plan : ∃ s : State, admitted s .shore .planResume = true ∧ s.plan.state = .none
    ∧ s.plan.current = none := ⟨berth .holding, by decide +kernel⟩

theorem witness_PlanResume_issues_again : ∃ (s : State) (st : PlanStep), admitted s .shore .planResume = true
    ∧ s.plan.current = some 1 ∧ s.plan.steps[0]? = some st ∧ st.mode = .ease ∧ s.plan.state = .held
    ∧ s.plan.owner = some .shore ∧ s.plan.panelStop = false ∧ s.plan.panelRampClear = true ∧ s.plan.phase = some .issued
    ∧ s.stateOf .l0 = .holding ∧ (s.lcu.get .l0).panel.rampClear = true ∧ (s.lcu.get .l0).panel.stop = false :=
  ⟨planned .holding .held .issued, ⟨only0, 0, .ease⟩, by decide +kernel⟩

theorem witness_PlanResume_refused : ∃ (s u v : State), admitted s (.vessel 7) .planResume = true
    ∧ s.plan.state = .held ∧ s.plan.owner ≠ some .vessel
    ∧ admitted u .shore .planResume = true ∧ u.plan.state = .running ∧ u.plan.owner = some .shore
    ∧ admitted v .shore .planResume = true ∧ v.plan.state = .held ∧ v.plan.owner = some .shore
    ∧ v.plan.panelStop = false ∧ v.plan.panelRampClear = true ∧ v.stateOf .l0 = .fault :=
  ⟨planned .holding .held .issued, planned .holding .running .issued, planned .fault .held .issued, by decide +kernel⟩

theorem witness_PlanTimers : ∀ st : LineState, st = .holding ∨ st = .easing →
    ∃ (s : State) (p : PlanStep), s.resetting = none ∧ s.plan.state = .running ∧ s.plan.current = some 1
      ∧ s.plan.steps[0]? = some p ∧ p.lines = only0 ∧ s.plan.phase = some .delay ∧ s.plan.delayRunning = true
      ∧ s.plan.panelRampClear = true ∧ s.stateOf .l0 = st ∧ s.plan.stepTimer.isSome = true
      ∧ (s.lcu.get .l0).panel.rampClear = true ∧ (s.lcu.get .l0).panel.stop = false := by
  intro st h
  refine ⟨planned st .running .delay, ⟨only0, 0, .ease⟩, ?_⟩
  rcases h with rfl | rfl <;> decide +kernel

/-- Each command refused, at a line of the current step and at one outside it, with a plan in every state. -/
theorem witness_Handed_refused : ∀ (p : PlanState) (c : SeqCommand), ∃ s : State, s.resetting = none ∧ s.plan.state = p
    ∧ s.plan.currentLines.get .l0 = true ∧ s.plan.currentLines.get .l3 = false
    ∧ refusedAt s ⟨.l0, c⟩ = true ∧ refusedAt s ⟨.l3, c⟩ = true := by
  intro p c
  refine ⟨planned .stowed p .issued, rfl, rfl, rfl, rfl, ?_⟩
  cases c <;> exact ⟨rfl, rfl⟩

/-- A RELEASE and a TRIP that are taken, a TRIP of a line TRIPPED already, and a RESUME that eases the line. -/
theorem witness_Handed_taken : ∃ s u v : State,
    (s.resetting = none ∧ s.stateOf .l0 = .holding ∧ refusedAt s ⟨.l0, .release⟩ = false ∧ refusedAt s ⟨.l0, .trip⟩ = false)
    ∧ (u.resetting = none ∧ u.stateOf .l0 = .tripped)
    ∧ (v.resetting = none ∧ refusedAt v ⟨.l0, .resume⟩ = false ∧ (v.lcu.get .l0).resume = some .easing) :=
  ⟨planned .holding .running .issued, planned .tripped .running .issued,
   { planned .halted .running .issued with lcu := (lcu0 .halted fun c => { c with resume := some .easing }).lcu },
   by decide +kernel⟩

/-- A RESUME to REWINDING: of the only line of an issued step, of one whose step has another line not clear, and of one outside a
RUNNING plan's issued step. -/
theorem witness_Handed_resume : ∃ s u v : State,
    (refusedAt s ⟨.l0, .resume⟩ = false ∧ (s.lcu.get .l0).resume = some .rewinding ∧ outOfStep s .l0 = false
      ∧ (∀ m, m ≠ .l0 → s.plan.currentLines.get m = false) ∧ s.plan.current = some 1
      ∧ s.plan.steps[0]? = some ⟨only0, 0, .ease⟩)
    ∧ (refusedAt u ⟨.l1, .resume⟩ = false ∧ (u.lcu.get .l1).resume = some .rewinding ∧ outOfStep u .l1 = false
      ∧ u.plan.currentLines.get .l2 = true ∧ u.stateOf .l2 = .halted)
    ∧ (refusedAt v ⟨.l0, .resume⟩ = false ∧ (v.lcu.get .l0).resume = some .rewinding ∧ outOfStep v .l0 = true) := by
  let halted (p : PlanState) (n : Nat) : State :=
    let s := planned .halted p .issued
    { s with
      lcu := s.lcu.imap fun _ c => { c with resume := some .rewinding }, plan := { s.plan with current := some n } }
  refine ⟨halted .running 1, halted .running 2, halted .held 1, ⟨?_, rfl, rfl, fun m h => ?_, rfl, rfl⟩, ?_, ?_⟩
  · decide +kernel
  · cases m <;> first | exact absurd rfl h | rfl
  · decide +kernel
  · decide +kernel

/-- Blocks that agree where a step's lines are sent from a MOORED call: by a resumption that goes on to the next step, by one that
commands the step again, its line latched or HALTED in easing, and by the delay's expiry (R132). -/
theorem witness_Plan_lets_go : ∃ s u v w : State,
    (blocksAgree s ∧ admitted s .shore .planResume = true ∧ s.plan.state = .held ∧ s.stateOf .l0 = .stowed
      ∧ s.stateOf .l1 = .holding ∧ s.stateOf .l2 = .holding ∧ s.plan.phase = some .issued)
    ∧ (blocksAgree u ∧ admitted u .shore .planResume = true ∧ u.plan.state = .held ∧ u.stateOf .l0 = .holding
      ∧ u.plan.phase = some .issued)
    ∧ (blocksAgree v ∧ admitted v .shore .planResume = true ∧ v.plan.state = .held ∧ v.stateOf .l0 = .halted
      ∧ (v.lcu.get .l0).resume = some .easing ∧ v.plan.phase = some .issued)
    ∧ (blocksAgree w ∧ w.resetting = none ∧ w.plan.state = .running ∧ w.plan.phase = some .delay
      ∧ w.plan.delayRunning = true ∧ w.stateOf .l0 = .holding ∧ w.sup.call.phase = .moored) :=
  ⟨planning (told .stowed .holding .moored) .held .issued, planning (told .holding .holding .moored) .held .issued,
   planning (told .halted .holding .moored) .held .issued, planning (told .holding .holding .moored) .running .delay,
   ⟨agrees_of (by decide +kernel), by decide +kernel⟩, ⟨agrees_of (by decide +kernel), by decide +kernel⟩,
   ⟨agrees_of (by decide +kernel), by decide +kernel⟩, ⟨agrees_of (by decide +kernel), by decide +kernel⟩⟩

/-- Blocks that agree where the last line of a step clears it and the next step is issued from a MOORED call. -/
theorem witness_ClearedStep_lets_go : ∃ (s : State) (f : InFlight) (next : PlanStep), blocksAgree s
    ∧ s.bus.inFlight = some f ∧ f.record.line = .l0 ∧ f.record.kind = .status ∧ s.stateOf .l0 = .unlatching
    ∧ s.plan.state = .running ∧ s.plan.phase = some .issued ∧ s.plan.current = some 1
    ∧ s.plan.steps[1]? = some next ∧ next.delay = 0 ∧ next.lines.get .l1 = true ∧ s.sup.call.phase = .moored :=
  ⟨asking (planning (told .unlatching .holding .moored) .running .issued), _, _, agrees_of (by decide +kernel),
   rfl, rfl, rfl, rfl, rfl, rfl, rfl, rfl, rfl, rfl, rfl⟩

/-- The last step's last line, and the first step's. -/
theorem witness_ClearedStepAdvances : ∀ n : Nat, n = 0 ∨ n = 1 → ∃ (s : State) (l : Line) (f : InFlight) (st : PlanStep),
    s.resetting = none ∧ s.bus.inFlight = some f ∧ f.record.line = l ∧ f.record.kind = .status ∧ s.stateOf l = .unlatching
    ∧ s.plan.state = .running ∧ s.plan.phase = some .issued ∧ s.plan.current = some (n + 1)
    ∧ s.plan.steps[n]? = some st ∧ st.lines.get l = true ∧ (s.lcu.get l).panel.stop = false
    ∧ ∀ m, m ≠ l → st.lines.get m = true → s.stateOf m = .slackOut := by
  rintro n (rfl | rfl)
  · refine ⟨{ planned .unlatching .running .issued with bus := (flying .unlatching .status 0).bus }, .l0, _,
      ⟨only0, 0, .ease⟩, rfl, rfl, rfl, rfl, rfl, rfl, rfl, rfl, rfl, rfl, rfl, ?_⟩
    intro m hm h; cases m <;> first | exact absurd rfl hm | exact absurd h (by decide)
  · refine ⟨{ planned .slackOut .running .issued with
        lcu := (berth .slackOut).lcu.set .l1 { (berth .slackOut).lcu.get .l1 with state := .unlatching }
        plan := { (planned .slackOut .running .issued).plan with current := some 2 }
        bus := { (flying .unlatching .status 0).bus with
          inFlight := some ⟨⟨.l1, .status, false⟩, 0x20, .start, [], true⟩ } }, .l1, _,
      ⟨lines12, 4, .trip⟩, rfl, rfl, rfl, rfl, rfl, rfl, rfl, rfl, rfl, rfl, rfl, ?_⟩
    intro m hm h; cases m <;> first | exact absurd rfl hm | rfl

/-- The last line of the step in TRIPPED, and a next step without a delay, its lines latched or not. -/
theorem witness_ClearedStep_tripped : ∀ st : LineState, st = .holding ∨ st = .easing →
    ∃ (s : State) (f : InFlight), s.resetting = none ∧ s.bus.inFlight = some f ∧ f.record.line = .l0
      ∧ f.record.kind = .status ∧ s.stateOf .l0 = .tripped ∧ s.plan.state = .running ∧ s.plan.phase = some .issued
      ∧ s.plan.current = some 1 ∧ s.plan.steps[0]? = some ⟨only0, 0, .ease⟩
      ∧ s.plan.steps[1]? = some ⟨lines12, 0, .trip⟩ ∧ s.stateOf .l1 = st ∧ s.stateOf .l2 = st := by
  intro st hs
  refine ⟨{ planned st .running .issued with
      lcu := (berth st).lcu.set .l0 { (berth st).lcu.get .l0 with state := .tripped }
      plan := { (planned st .running .issued).plan with steps := [⟨only0, 0, .ease⟩, ⟨lines12, 0, .trip⟩] }
      bus := (flying st .status 0).bus }, _, rfl, rfl, rfl, rfl, rfl, rfl, rfl, rfl, rfl, rfl, ?_⟩
  rcases hs with rfl | rfl <;> exact ⟨rfl, rfl⟩

/-! The call and the panel -/

theorem witness_Bind_opens : ∃ (s : State) (code : Half) (lines : LineSet), admitted s (.vessel code) (.bind lines) = true
    ∧ s.sup.adoptionComplete = true ∧ code ≠ 0#16 ∧ lines.get .l0 = true ∧ s.sup.call.phase = .idle
    ∧ ∀ l, lines.get l = true → s.stateOf l ≠ .disabled := by
  refine ⟨idleCall .holding, 65535, only0, by decide +kernel, rfl, by decide, rfl, rfl, ?_⟩
  intro l _ h; cases l <;> exact absurd h (by decide +kernel)

theorem witness_Bind_adopted : ∃ (s : State) (code : Half) (lines : LineSet),
    admitted s (.vessel code) (.bind lines) = true ∧ s.sup.adoptionComplete = true ∧ code ≠ 0#16 ∧ lines.get .l0 = true
    ∧ s.sup.call.phase ≠ .idle ∧ s.sup.call.vesselCode = some 0 :=
  ⟨{ berth .stowed with sup := { (berth .stowed).sup with
      call := { (berth .stowed).sup.call with vesselCode := some 0 } } }, 7, only0, by decide +kernel⟩

theorem witness_Bind_refused : ∃ s u v : State,
    (admitted s (.vessel 7) (.bind only0) = true ∧ s.sup.adoptionComplete = false)
    ∧ (admitted u (.vessel 0) (.bind only0) = true ∧ u.sup.adoptionComplete = true)
    ∧ (admitted u (.vessel 7) (.bind (Lines.const false)) = true)
    ∧ (admitted u (.vessel 9) (.bind only0) = true ∧ u.sup.call.phase ≠ .idle ∧ u.sup.call.vesselCode = some 7)
    ∧ (admitted v (.vessel 7) (.bind only0) = true ∧ v.sup.adoptionComplete = true ∧ v.stateOf .l0 = .disabled) :=
  ⟨{ berth .holding with sup := { (berth .holding).sup with adoptionComplete := false } }, berth .holding,
   idleCall .disabled, by decide +kernel⟩

theorem witness_CallCloses : ∀ (pending : Bool), ∃ s : State, admitted s (.vessel 7) .unbind = true
    ∧ admitted s .shore .closeCall = true ∧ s.sup.call.phase ≠ .idle ∧ s.store.applyPending.berth = pending
    ∧ ∀ l, (s.sup.view.get l).state = .stowed := by
  intro pending
  refine ⟨{ berth .stowed with store := { (berth .stowed).store with
    applyPending := ⟨Lines.const false, pending⟩ } }, ?_, ?_, nofun, rfl, by intro l; cases l <;> rfl⟩ <;>
    cases pending <;> decide +kernel

theorem witness_CallCloses_refused : ∃ s u : State, admitted s .shore .closeCall = true ∧ s.sup.call.phase ≠ .idle
    ∧ (s.sup.view.get .l0).state = .holding ∧ admitted u .shore .closeCall = true ∧ u.sup.call.phase = .idle :=
  ⟨berth .holding, idleCall .holding, by decide +kernel⟩

/-- A line ATTACHING by the other master's ATTACH of this millisecond, for each master's close. -/
theorem witness_CallCloses_checked : ∀ m : Master, ∃ s : State, s.sup.call.phase ≠ .idle ∧ ¬ departHolds s
    ∧ s.sup.closeChecked = some (m, s.now)
    ∧ (match m with
       | .shore => admitted s (.vessel 7) .unbind = true
       | .vessel => admitted s .shore .closeCall = true) := by
  intro m
  refine ⟨{ berth .attaching with sup := { (berth .attaching).sup with closeChecked := some (m, 0) } }, nofun, ?_, rfl, ?_⟩
  · exact fun h => absurd (show departHolds (berth .attaching) from h) fun h => absurd (h .l0) (by decide)
  · cases m <;> decide +kernel

theorem witness_Panel : ∀ level raw : Bool, ∃ s : State, s.resetting = none
    ∧ s.sup.trip.timer.isSome = true ∧ s.sup.stop.timer.isSome = true ∧ s.sup.rampClear.timer.isSome = true
    ∧ s.sup.trip.level = level ∧ s.sup.stop.level = level ∧ s.sup.rampClear.level = level
    ∧ s.pins.trip = raw ∧ s.pins.stop = raw ∧ s.pins.rampClear = raw := by
  intro level raw
  refine ⟨panel level raw, ?_⟩
  cases level <;> cases raw <;> decide +kernel

/-- Blocks that agree where a STOP leaves nothing off the vessel, and where a TRIP takes an assigned line of a MOORED call. -/
theorem witness_Panel_call : ∃ s u : State,
    (blocksAgree s ∧ s.resetting = none ∧ s.sup.stop.timer.isSome = true ∧ s.pins.stop = true ∧ s.sup.stop.level = false
      ∧ s.sup.call.phase = .lettingGo
      ∧ gives (exec (.panelStabilityExpiry .stop) s) (fun t => t.sup.call.phase == .clear) = true)
    ∧ (blocksAgree u ∧ u.resetting = none ∧ u.sup.trip.timer.isSome = true ∧ u.pins.trip = true ∧ u.sup.trip.level = false
      ∧ u.sup.call.phase = .moored) := by
  let b := told .attaching .stowed .lettingGo
  let h := told .holding .holding .moored
  exact ⟨{ b with pins := { b.pins with stop := true }, sup := { b.sup with stop := ⟨false, some 0⟩ } },
    { h with pins := { h.pins with trip := true }, sup := { h.sup with trip := ⟨false, some 0⟩ } },
    ⟨agrees_of (by decide +kernel), by decide +kernel⟩, ⟨agrees_of (by decide +kernel), by decide +kernel⟩⟩

/-- A STOP activation of a RUNNING plan with commands on their way: none, one of the current step, and one of no step with a TRIP. -/
theorem witness_Panel_handed : ∀ x : List Handed, x = [] ∨ x = [⟨.l0, .release⟩] ∨ x = [⟨.l1, .release⟩, ⟨.l0, .trip⟩] →
    ∃ s : State, s.resetting = none ∧ s.sup.stop.timer.isSome = true ∧ s.pins.stop = true ∧ s.sup.stop.level = false
      ∧ s.plan.state = .running ∧ s.plan.currentLines = only0 ∧ s.handed = x := by
  intro x _
  let b := planned .holding .running .issued
  exact ⟨{ b with handed := x, pins := { b.pins with stop := true }, sup := { b.sup with stop := ⟨false, some 0⟩ } },
    rfl, rfl, rfl, rfl, rfl, rfl, rfl⟩

/-! The Drive Bus -/

theorem witness_Transactions_start : ∃ (s : State) (r : BusRecord), s.resetting = none ∧ s.bus.activity = .idle
    ∧ s.bus.queue = [r] :=
  ⟨{ berth .holding with bus := { DriveBus.reset with activity := .idle, queue := [⟨.l7, .status, false⟩] } },
   ⟨.l7, .status, false⟩, by decide +kernel⟩

theorem witness_Transactions_end : ∃ (s : State) (f : InFlight) (i : Intent), s.resetting = none
    ∧ s.bus.inFlight = some f ∧ f.record.kind = .command i ∧ State.reset.bus.activity = .recovery :=
  ⟨flying .holding (.command ⟨.apply, .stop, 0, .hold, false⟩) 0, _, ⟨.apply, .stop, 0, .hold, false⟩, rfl, rfl, rfl, rfl⟩

/-- The counts around the third failure, on a line in FAULT and on one that is not. -/
theorem witness_FailuresAreCountedAndRequeued : ∀ (n : Nat) (st : LineState), n = 1 ∨ n = 2 ∨ n = 255 →
    st = .fault ∨ st = .holding → ∃ (s : State) (f : InFlight), s.resetting = none ∧ s.bus.inFlight = some f
      ∧ stillAhead f .absent ∧ stillAhead f .indexRefused ∧ stillAhead f .dataRefused
      ∧ (s.bus.modules.get f.record.line).failures = n ∧ s.stateOf f.record.line = st
      ∧ s.store.applyPending.lines.get f.record.line = false := by
  rintro n st (rfl | rfl | rfl) (rfl | rfl) <;>
    exact ⟨flying _ (.command ⟨.apply, .stop, 0, .hold, false⟩) _, _, rfl, rfl, .inl rfl, .inl rfl, ⟨nofun, .inl rfl⟩,
      rfl, rfl, rfl⟩

/-- A transaction at each of its phases, and the failures that are past there: a STATUS in its data phase has none left. -/
theorem witness_Failures_past : ∀ why : NoAck, ∃ (s : State) (f : InFlight), s.resetting = none ∧ s.bus.inFlight = some f
    ∧ f.record.kind = .status ∧ f.phase = .data ∧ ¬ stillAhead f why := by
  intro why
  refine ⟨{ flying .holding .status 0 with
    bus := { (flying .holding .status 0).bus with inFlight := some ⟨⟨.l0, .status, false⟩, 0x20, .data, [0x10], true⟩ } },
    _, rfl, rfl, rfl, rfl, ?_⟩
  cases why <;> simp [stillAhead]

/-- A STATUS of which no byte has arrived: the bytes decoded are the command's, whatever they are. -/
theorem witness_Status_bytes : ∀ (st : LineState) (b : StatusBytes), ∃ f : InFlight,
    (flying st .status 0).bus.inFlight = some f ∧ sixBytes f b = b := fun _ _ => ⟨_, rfl, rfl⟩

/-- A status in flight for Line 0 in any state, its views in agreement. -/
theorem witness_Status : ∀ st : LineState, ∃ (s : State) (l : Line) (f : InFlight), s.resetting = none
    ∧ s.bus.inFlight = some f ∧ f.record.line = l ∧ f.record.kind = .status ∧ s.stateOf l = st ∧ f.fresh = true
    ∧ s.store.applyPending.lines.get l = false ∧ outOfStep s l = true ∧ viewsAgree s l = true
    ∧ (s.lcu.get l).lastStatus = none ∧ (s.lcu.get l).panel.stop = false ∧ (s.profile l).autoRewind = true := by
  intro st
  cases st <;> exact ⟨flying _ .status 0, .l0, _, rfl, rfl, rfl, rfl, rfl, rfl, rfl, by decide +kernel, by decide +kernel,
    rfl, rfl, rfl⟩

/-- The other forms: HALTED with a resume state, a STOP, no auto-rewind, and an adopting line with its fresh sample. -/
theorem witness_Status_forms : ∃ s u v w : State,
    (s.bus.inFlight.isSome = true ∧ s.stateOf .l0 = .halted ∧ (s.lcu.get .l0).resume = some .rewinding
      ∧ viewsAgree s .l0 = true)
    ∧ (u.bus.inFlight.isSome = true ∧ u.stateOf .l0 = .unlatching ∧ (u.lcu.get .l0).panel.stop = true
      ∧ viewsAgree u .l0 = true)
    ∧ (v.bus.inFlight.isSome = true ∧ v.stateOf .l0 = .unlatching ∧ (v.profile .l0).autoRewind = false
      ∧ viewsAgree v .l0 = true)
    ∧ (w.bus.inFlight.isSome = true ∧ w.stateOf .l0 = .adopting ∧ (w.lcu.get .l0).freshSample = true
      ∧ viewsAgree w .l0 = true) :=
  ⟨{ flying .halted .status 0 with lcu := (lcu0 .halted fun c => { c with resume := some .rewinding }).lcu },
   { flying .unlatching .status 0 with lcu := (lcu0 .unlatching fun c => { c with panel := ⟨true, false, true⟩ }).lcu },
   { flying .unlatching .status 0 with store := { ProfileStore.reset with
       working := Lines.const (some { prof with autoRewind := false }) } },
   { flying .adopting .status 0 with lcu := (lcu0 .adopting fun c => { c with freshSample := true }).lcu },
   by decide +kernel⟩

/-- A line HALTED in attaching with its intent, and reports that take no test: CLOSED in HOLDING, OPEN in SLACK_OUT, OPEN with
the stow mark in STOWED and CLOSED with it in RENDERING, the position not referenced in 0. -/
theorem witness_Status_no_test : ∃ s u v w x : State,
    (s.bus.inFlight.isSome = true ∧ s.stateOf .l0 = .halted ∧ (s.lcu.get .l0).resume = some .attaching
      ∧ viewsAgree s .l0 = true ∧ intentFits s .l0 = true)
    ∧ (intentFits u .l0 = true ∧ viewsAgree u .l0 = true ∧ takesNoTest u .l0 ⟨0, 1, 0, 0, 0, 0⟩)
    ∧ (intentFits v .l0 = true ∧ takesNoTest v .l0 ⟨0, 0, 0, 0, 0, 0⟩)
    ∧ (takesNoTest w .l0 ⟨0, 0, 1, 0, 0, 0⟩ ∧ viewsAgree w .l0 = true ∧ (w.drum.get .l0).position = 3)
    ∧ (takesNoTest x .l0 ⟨0, 1, 1, 0, 0, 0⟩ ∧ viewsAgree x .l0 = true ∧ (x.drum.get .l0).position = 3
      ∧ (x.reg.get .l0).rendering = true ∧ -(x.lcu.get .l0).lockPosition < (x.reg.get .l0).allowance) :=
  ⟨{ flying .halted .status 0 with lcu := (lcu0 .halted fun c =>
      { c with resume := some .attaching, intent := some ⟨.apply, .stop, 0, .rest, false⟩ }).lcu },
   { flying .holding .status 0 with lcu := (lcu0 .holding fun c =>
      { c with intent := some ⟨.apply, .stop, 0, .hold, false⟩ }).lcu },
   { flying .slackOut .status 0 with lcu := (lcu0 .slackOut fun c =>
      { c with intent := some ⟨.apply, .stop, 0, .rest, false⟩ }).lcu },
   { flying .stowed .status 0 with drum := (drum0 .stowed fun d => { d with position := 3 }).drum },
   { flying .rendering .status 0 with drum := (drum0 .rendering fun d => { d with position := 3 }).drum },
   by decide +kernel, ⟨by decide +kernel, by decide +kernel, .inr (by decide +kernel)⟩,
   ⟨by decide +kernel, .inr (by decide +kernel)⟩, ⟨.inr (by decide +kernel), by decide +kernel⟩,
   ⟨.inr (by decide +kernel), by decide +kernel⟩⟩

/-- The last line off in a call that lets go, which is then CLEAR (R132), and the stow mark of a line whose apply is pending. -/
theorem witness_Status_clear_and_apply :
    (let s := asking (told .tripped .stowed .lettingGo)
     intentFits s .l0 = true ∧ viewsAgree s .l0 = true ∧ s.sup.call.phase = .lettingGo ∧ outOfStep s .l0 = true
     ∧ gives (exec (.statusComplete ⟨0, 0, 0, 0, 0, 0⟩) s) (fun t => t.sup.call.phase == .clear) = true)
    ∧ ∀ on : Bool, let s := waitingApply on (asking (told .slackOut .stowed .clear))
      intentFits s .l0 = true ∧ viewsAgree s .l0 = true ∧ s.store.applyPending.lines.get .l0 = true
      ∧ (lineProfileOf (s.store.stored.lines.get .l0).bytes).enabled = on
      ∧ (lineProfileOf (s.store.stored.lines.get .l0).bytes).stepUm ≠ 0 := by
  refine ⟨by decide +kernel, fun on => ?_⟩
  cases on <;> decide +kernel

/-- The last ADOPTING line, derived HOLDING, opens a call over the latched lines (R146, R197); a FAULT line's new code with the
blocks in agreement, and a changed latch. -/
theorem witness_Status_adoption_and_fault :
    (let b := adoptingWith .holding
     let s := { asking b with lcu := b.lcu.imap fun _ c => { c with freshSample := true } }
     s.stateOf .l0 = .adopting ∧ viewsAgree s .l0 = true ∧ (s.lcu.get .l0).freshSample = true
     ∧ s.sup.adoptionComplete = false
     ∧ gives (exec (.statusComplete ⟨0, 1, 0, 0, 0, 0⟩) s) (fun t => t.sup.adoptionComplete
         && t.sup.call == ⟨.moored, some 0, 0, Lines.const true, 0, 0, some 0⟩) = true)
    ∧ (let s := asking (told .fault .holding .moored)
       blocksAgree s ∧ s.stateOf .l0 = .fault ∧ (s.lcu.get .l0).lastStatus = none) :=
  ⟨by decide +kernel, agrees_of (by decide +kernel), rfl, rfl⟩

/-! The ports -/

theorem witness_Frames : ∃ s u : State, ∃ whole part : Instr, whole.wellFormed = true ∧ part.wellFormed = true
    ∧ s.resetting = none ∧ s.pins.selected = false ∧ u.resetting = none ∧ u.pins.selected = true
    ∧ u.shore.frameOut = some .noResponse :=
  ⟨berth .holding, { berth .holding with
    pins := { Pins.reset with selected := true }, shore := { ShorePort.reset with frameOut := some .noResponse } },
   .frameRelease 96 false (framed96 0x12 0 0 0), .frameRelease 40 false ((framed96 0x12 0 0 0).take 40),
   rfl, rfl, rfl, rfl, rfl, rfl, rfl⟩

/-- The berth with a frame waiting for the end of its decode, Line 0 DISABLED, and ACK_RESET given or not. -/
def framed (acked : Bool) (f : ShoreFrame) : State :=
  { lcu0 .holding (fun c => { c with state := .disabled }) with
    shore := { ShorePort.reset with acked := acked, slot := .pending f } }

/-! One request for each check of R163, its form good but for BAD_FRAME's. -/

theorem fails_kind (s : State) (x : Sender) : failsFirst s x (.unknown 0x80 3) true .unknownKind := .inl ⟨trivial, rfl⟩

theorem fails_shore_only (s : State) (v : Half) : failsFirst s (.vessel v) .softReset true .shoreOnly :=
  .inr (.inl ⟨id, ⟨nofun, trivial⟩, rfl⟩)

theorem fails_form (s : State) (x : Sender) : failsFirst s x .readCall false .badFrame :=
  .inr (.inr (.inl ⟨id, And.right, .inl rfl, rfl⟩))

theorem fails_line (s : State) (x : Sender) : failsFirst s x (.readLine 8) true .badLine :=
  .inr (.inr (.inr (.inl ⟨id, And.right, fun h => h.elim nofun id, ⟨8, rfl, by decide⟩, rfl⟩)))

theorem fails_disabled (s : State) (x : Sender) (h : s.stateOf .l0 = .disabled) :
    failsFirst s x (.readLine 0) true .lineDisabled :=
  .inr (.inr (.inr (.inr (.inl ⟨id, And.right, fun h => h.elim nofun id, ⟨0, .l0, rfl, rfl, h⟩, rfl⟩))))

theorem fails_shore_acked (s : State) (h : s.shore.acked = false) : failsFirst s .shore .planHold true .resetNotAcked :=
  .inr (.inr (.inr (.inr (.inr (.inl ⟨id, fun h => h.1 rfl, fun h => h.elim nofun id, by rintro ⟨_, ⟨⟩, _⟩,
    by rintro ⟨_, _, ⟨⟩, _⟩, id, h, rfl⟩)))))

theorem fails_vessel_acked (s : State) (v : Half) (h : s.vessel.acked = false) :
    failsFirst s (.vessel v) .planHold true .resetNotAcked :=
  .inr (.inr (.inr (.inr (.inr (.inl ⟨id, And.right, fun h => h.elim nofun id, by rintro ⟨_, ⟨⟩, _⟩,
    by rintro ⟨_, _, ⟨⟩, _⟩, id, h, rfl⟩)))))

theorem fails_bound (s : State) (v : Half) (ha : s.vessel.acked = true) (h : s.sup.call.vesselCode ≠ some v) :
    failsFirst s (.vessel v) .planHold true .notBound :=
  .inr (.inr (.inr (.inr (.inr (.inr (.inl ⟨id, And.right, fun h => h.elim nofun id, by rintro ⟨_, ⟨⟩, _⟩,
    by rintro ⟨_, _, ⟨⟩, _⟩, .inr ha, trivial, fun b => h b.2.1, rfl⟩))))))

theorem fails_assigned (s : State) (v : Half) (ha : s.vessel.acked = true) (hp : s.sup.call.phase ≠ .idle)
    (hc : s.sup.call.vesselCode = some v) (hv : v ≠ 0#16) (hl : s.sup.call.assigned.get .l3 = false)
    (hs : s.stateOf .l3 ≠ .disabled) : failsFirst s (.vessel v) (.lineCommand 3 .attach) true .notAssigned := by
  have l3 : lineOfByte 3#8 = some .l3 := by decide
  refine .inr (.inr (.inr (.inr (.inr (.inr (.inr ⟨id, ?_, fun h => h.elim nofun id, ?_, ?_, .inr ha, ⟨hp, hc, hv⟩,
    ⟨nofun, .l3, l3, hl⟩, rfl⟩))))))
  · rintro ⟨_, h | h | h⟩ <;> cases h
  · rintro ⟨b, hb, h⟩
    cases hb
    exact absurd h (by decide)
  · rintro ⟨b, l, hb, h, hd⟩
    cases hb
    obtain rfl : Line.l3 = l := Option.some.inj (l3.symm.trans h)
    exact hs hd

/-- A pending frame that fails each check of R163 that the shore's requests can fail. -/
theorem witness_FirstFailingCheck_shore : ∀ code : ReplyCode,
    code ∈ [ReplyCode.unknownKind, .badFrame, .badLine, .lineDisabled, .resetNotAcked] →
    ∃ (s : State) (f : ShoreFrame), s.resetting = none ∧ s.shore.slot = .pending f
      ∧ failsFirst s .shore f.request f.formOk code := by
  intro code h
  simp only [List.mem_cons, List.not_mem_nil, or_false] at h
  obtain rfl | rfl | rfl | rfl | rfl := h
  · exact ⟨framed true ⟨0x80, 3, .unknown 0x80 3, true⟩, _, rfl, rfl, fails_kind _ _⟩
  · exact ⟨framed true ⟨0x12, 0, .readCall, false⟩, _, rfl, rfl, fails_form _ _⟩
  · exact ⟨framed true ⟨0x11, 8, .readLine 8, true⟩, _, rfl, rfl, fails_line _ _⟩
  · exact ⟨framed true ⟨0x11, 0, .readLine 0, true⟩, _, rfl, rfl, fails_disabled _ _ rfl⟩
  · exact ⟨framed false ⟨0x13, 0, .planHold, true⟩, _, rfl, rfl, fails_shore_acked _ rfl⟩

/-- The berth with a message of a vessel waiting behind a transmission and a reply, Line 0 DISABLED, Lines 1 and 2 assigned. -/
def waitingMessage (acked : Bool) (m : VesselMessage) : State :=
  { lcu0 .holding (fun c => { c with state := .disabled }) with
    sup := { (berth .holding).sup with call := { (berth .holding).sup.call with assigned := lines12 } }
    vessel := { (berth .holding).vessel with acked := acked, waiting := some m, replyPlace := some aReply } }

/-- A waiting message that fails each check of R163. -/
theorem witness_FirstFailingCheck_vessel : ∀ code : ReplyCode,
    code ∈ [ReplyCode.unknownKind, .badFrame, .badLine, .lineDisabled, .resetNotAcked, .shoreOnly, .notBound, .notAssigned] →
    ∃ (s : State) (m : VesselMessage), s.resetting = none ∧ s.vessel.tx = .sending (.reply aReply)
      ∧ s.vessel.replyPlace = some aReply ∧ s.vessel.waiting = some m
      ∧ failsFirst s (.vessel m.code) m.request m.formOk code := by
  intro code h
  simp only [List.mem_cons, List.not_mem_nil, or_false] at h
  obtain rfl | rfl | rfl | rfl | rfl | rfl | rfl | rfl := h
  · exact ⟨waitingMessage true ⟨7, 1, .unknown 0x80 3, true⟩, _, rfl, rfl, rfl, rfl, fails_kind _ _⟩
  · exact ⟨waitingMessage true ⟨7, 1, .readCall, false⟩, _, rfl, rfl, rfl, rfl, fails_form _ _⟩
  · exact ⟨waitingMessage true ⟨7, 1, .readLine 8, true⟩, _, rfl, rfl, rfl, rfl, fails_line _ _⟩
  · exact ⟨waitingMessage true ⟨7, 1, .readLine 0, true⟩, _, rfl, rfl, rfl, rfl, fails_disabled _ _ rfl⟩
  · exact ⟨waitingMessage false ⟨7, 1, .planHold, true⟩, _, rfl, rfl, rfl, rfl, fails_vessel_acked _ _ rfl⟩
  · exact ⟨waitingMessage true ⟨7, 1, .softReset, true⟩, _, rfl, rfl, rfl, rfl, fails_shore_only _ _⟩
  · exact ⟨waitingMessage true ⟨9, 1, .planHold, true⟩, _, rfl, rfl, rfl, rfl,
      fails_bound _ _ rfl (by decide)⟩
  · exact ⟨waitingMessage true ⟨7, 1, .lineCommand 3 .attach, true⟩, _, rfl, rfl, rfl, rfl,
      fails_assigned _ _ rfl (by decide) rfl (by decide) rfl (by decide)⟩

/-- A vessel's ATTACH waiting in the millisecond in which a CLOSE_CALL closed its call. -/
theorem witness_FirstFailingCheck_together : ∃ s : State, s.resetting = none ∧ s.vessel.tx = .sending (.reply aReply)
    ∧ s.vessel.replyPlace = some aReply ∧ s.vessel.waiting = some ⟨7, 1, .lineCommand 3 .attach, true⟩
    ∧ s.sup.call.phase = .idle ∧ s.sup.closedCall = some (7, s.now)
    ∧ failsFirst s (.vessel 7) (.lineCommand 3 .attach) true .notBound := by
  let w := waitingMessage true ⟨7, 1, .lineCommand 3 .attach, true⟩
  have l3 : lineOfByte 3#8 = some .l3 := by decide
  refine ⟨{ w with sup := { w.sup with call := CallRecord.reset, closedCall := some (7, 0) } }, rfl, rfl, rfl, rfl, rfl, rfl,
    .inr (.inr (.inr (.inr (.inr (.inr (.inl ⟨id, ?_, fun h => h.elim nofun id, ?_, ?_, .inr rfl, trivial,
      fun b => b.1 rfl, rfl⟩))))))⟩
  · rintro ⟨_, h | h | h⟩ <;> cases h
  · rintro ⟨b, hb, h⟩
    cases hb
    exact absurd h (by decide)
  · rintro ⟨b, l, hb, h, hd⟩
    cases hb
    obtain rfl : Line.l3 = l := Option.some.inj (l3.symm.trans h)
    cases hd

theorem witness_Decoded : ∃ s u : State, s.resetting = none ∧ s.shore.slot = .pending ⟨0x12, 0, .readCall, true⟩
    ∧ refusal s .shore true .readCall = none ∧ u.vessel.tx = .sending (.reply aReply)
    ∧ u.vessel.replyPlace = some aReply ∧ u.vessel.waiting = some ⟨7, 0x0A#8, .readCall, true⟩
    ∧ refusal u (.vessel 7) true .readCall = none :=
  ⟨{ berth .holding with shore := { (berth .holding).shore with slot := .pending ⟨0x12, 0, .readCall, true⟩ } },
   { berth .holding with vessel := { (berth .holding).vessel with
      waiting := some ⟨7, 0x0A#8, .readCall, true⟩, replyPlace := some aReply } },
   rfl, rfl, by decide +kernel, rfl, rfl, rfl, by decide +kernel⟩

theorem witness_Decoded_nothing_waits : ∃ s : State, s.resetting = none ∧ s.vessel.tx = .sending (.reply aReply)
    ∧ s.vessel.replyPlace = none ∧ s.vessel.waiting = none ∧ s.vessel.reportOwed = false :=
  ⟨berth .holding, rfl, rfl, rfl, rfl, rfl⟩

theorem witness_Reads : ∀ sender : Sender, sender = .shore ∨ sender = .vessel 7 →
    ∃ (s : State) (b : Byte) (l : Line), lineOfByte b = some l ∧ admitted s sender (.readLine b) = true
      ∧ admitted s sender .readCall = true ∧ admitted s .shore .readPlan = true ∧ admitted s .shore .readCaptures = true := by
  rintro sender (rfl | rfl) <;> exact ⟨berth .holding, 7, .l7, by decide +kernel⟩

theorem witness_Events : ∃ s : State, admitted s .shore .readEvents = true
    ∧ admitted s .shore (.setMask KindSet.none) = true ∧ admitted s .shore .ackReset = true
    ∧ admitted s (.vessel 7) .ackReset = true ∧ admitted s .shore .clearCaptures = true :=
  ⟨berth .holding, by decide +kernel⟩

theorem witness_Reports : ∃ s u : State, admitted s (.vessel 7) (.setReporting .stream 0 KindSet.every) = true
    ∧ admitted s (.vessel 7) (.setReporting .event 65535 KindSet.every) = true
    ∧ s.resetting = none ∧ s.vessel.reportTimer.isSome = true ∧ s.vessel.tx ≠ .idle
    ∧ u.resetting = none ∧ u.vessel.reportTimer.isSome = true ∧ u.vessel.tx = .idle ∧ u.vessel.replyPlace = none :=
  ⟨berth .holding, quietTx, by decide +kernel⟩

/-- EVENT mode, a hold timer running, and no pair pending. -/
theorem witness_Reports_event : ∃ s : State, s.resetting = none ∧ s.vessel.tx ≠ .idle
    ∧ (s.lmu.get .l0).holdTimer = some 0 ∧ s.vessel.mode = .event ∧ s.vessel.events.meets s.vessel.mask = false
    ∧ s.vessel.mask.refReseed = true ∧ s.vessel.reportOwed = false :=
  ⟨{ lmu0 .holding (fun c => { c with holdTimer := some 0 }) with vessel := { (berth .holding).vessel with
      mode := .event, events := ⟨Lines.const KindSet.none, KindSet.none⟩ } },
   rfl, by rintro ⟨⟩, rfl, rfl, by decide +kernel, rfl, rfl⟩

/-- Hunting, one byte in, and a whole message of length 5 for this berth with a good check code. -/
theorem witness_Bytes : ∃ s u v : State, s.vessel.assembler = .hunting
    ∧ u.vessel.assembler = .assembling [0xA5] ∧ u.vessel.gapTimer.isSome = true
    ∧ v.vessel.assembler = .assembling (messageBytes 0 7 0x85 [])
    ∧ (messageBytes 0 7 0x85 []).length = ((messageBytes 0 7 0x85 []).getD 1 0#8).toNat + 4
    ∧ ((messageBytes 0 7 0x85 []).getD 1 0#8).toNat = 5 ∧ messageCheckGood (messageBytes 0 7 0x85 []) = true
    ∧ v.store.workingBerth.berthCode = 0 ∧ v.vessel.waiting = none ∧ v.vessel.replyPlace ≠ none ∧ v.vessel.tx ≠ .idle :=
  ⟨berth .holding, assembling [0xA5], assembling (messageBytes 0 7 0x85 []), by decide +kernel⟩

/-! Profiles -/

theorem witness_ProfileRequests : ∃ s : State, admitted s .shore (.readProfile 9) = true
    ∧ recordOfByte 8 = some .berth ∧ recordOfByte 0 = some (.line .l0) ∧ admitted s .shore (.readProfile 8) = true
    ∧ admitted s .shore (.writeProfile 0 profBytes) = true ∧ admitted s .shore (.lockProfile 8) = true
    ∧ admitted s .shore (.commissionProfile 8) = true ∧ admitted s .shore .verifyStore = true
    ∧ s.store.programming = .none ∧ s.stateOf .l0 = .stowed :=
  ⟨berth .stowed, by decide +kernel⟩

/-- A berth whose records all fail their check, so that no drive address is taken. -/
def unwritten : State := { State.reset with
  shore := { ShorePort.reset with acked := true }
  store := { ProfileStore.reset with stored := Records.const ⟨[], true⟩ } }

theorem unwritten_address (l : Line) : ¬ ∃ m, m ≠ l ∧
    (let r := unwritten.store.stored.lines.get m
     (r.checkGood = true ∧ (r.bytes.getD 0 0#8).toNat % 2 = 1 ∧ (r.bytes.getD 1 0#8).toNat = 0x20)
     ∨ (unwritten.stateOf m ≠ .disabled ∧ ∃ p, unwritten.store.working.get m = some p ∧ p.driveAddress = 0x20)) := by
  rintro ⟨m, -, h | ⟨-, p, h, -⟩⟩
  · cases m <;> exact absurd h.1 (by decide)
  · cases m <;> cases h

/-- The profile of the worked cases passes every field test; with the step size's first byte FFH it fails at offset 46 first; its
address is taken where another line's working copy has it. -/
theorem witness_ProfileRequests_fields : admitted unwritten .shore (.writeProfile 0 profBytes) = true
    ∧ (∀ k, ¬ fieldFails unwritten (.line .l0) profBytes k)
    ∧ fieldFails unwritten (.line .l0) (profBytes.set 46 0xFF) 46
    ∧ (∀ k, k < 46 → ¬ fieldFails unwritten (.line .l0) (profBytes.set 46 0xFF) k)
    ∧ fieldFails (berth .stowed) (.line .l0) profBytes 1 := by
  refine ⟨by decide +kernel, ?_, ?_, ?_, ?_⟩
  · intro k
    simp only [fieldFails, lineFieldFails]
    rintro (h | ⟨-, -, h | h | h⟩ | h | h | h | h | h | h | h | h | h | h | h | h | h | h | ⟨h1, h2, h⟩)
    case inr.inl.inr.inr => exact unwritten_address .l0 h
    case inr.inl.inl => exact absurd h (by decide)
    case inr.inl.inr.inl => exact absurd h (by decide)
    case inr.inr.inr.inr.inr.inr.inr.inr.inr.inr.inr.inr.inr.inr.inr.inr => interval_cases k <;> exact h (by decide)
    all_goals exact absurd h.2 (by decide)
  · iterate 15 apply Or.inr
    exact .inl ⟨rfl, .inr (by decide)⟩
  · intro k hk
    simp only [fieldFails, lineFieldFails]
    rintro (h | ⟨-, -, h | h | h⟩ | h | h | h | h | h | h | h | h | h | h | h | h | h | h | ⟨h1, h2, h⟩)
    case inr.inl.inr.inr => exact unwritten_address .l0 h
    case inr.inl.inl => exact absurd h (by decide)
    case inr.inl.inr.inl => exact absurd h (by decide)
    case inr.inr.inr.inr.inr.inr.inr.inr.inr.inr.inr.inr.inr.inr.inr.inr => omega
    all_goals first | exact absurd h.2 (by decide) | omega
  · exact .inr (.inl ⟨rfl, by decide, .inr (.inr ⟨.l1, by decide, .inr ⟨by decide +kernel, prof, rfl, rfl⟩⟩)⟩)

theorem witness_ProgrammingEnds : ∀ st : LineState, st = .stowed ∨ st = .fault ∨ st = .disabled ∨ st = .holding →
    ∃ (s u : State) (bytes : List Byte), s.resetting = none ∧ s.store.programming = .write (.line .l0) bytes
      ∧ s.stateOf .l0 = st ∧ outOfStep s .l0 = true ∧ (lineProfileOf bytes).stepUm ≠ 0
      ∧ u.store.programming = .lock .berth := by
  intro st h
  refine ⟨programming st (.write (.line .l0) profBytes), programming .stowed (.lock .berth), profBytes, ?_⟩
  rcases h with rfl | rfl | rfl | rfl <;> decide +kernel

/-- The end of a profile's programming on the line that the repeater has selected: enabled, taken out of a call that lets go, and
taken to ADOPTING from DISABLED. -/
theorem witness_ProgrammingEnds_selected : ∀ (on : Bool) (st : LineState),
    (on, st) = (true, .stowed) ∨ (on, st) = (false, .stowed) ∨ (on, st) = (true, .disabled) →
    ∃ (s : State) (bytes : List Byte), s.resetting = none ∧ s.store.programming = .write (.line .l0) bytes
      ∧ (lineProfileOf bytes).enabled = on ∧ (lineProfileOf bytes).stepUm ≠ 0 ∧ s.stateOf .l0 = st
      ∧ (s.lmu.get .l0).stateView = st ∧ outOfStep s .l0 = true ∧ s.repeater.selected = some .l0
      ∧ s.sup.adoptionComplete = true ∧ s.sup.call.assigned.get .l0 = true
      ∧ gives (exec (.writeProgrammingEnd bytes) s)
          (fun t => t.repeater.unitSteps == 20 && t.sup.call.assigned.get .l0 == on) = true := by
  intro on st h
  let b := programming st (.write (.line .l0) (if on then profBytes else 0#8 :: profBytes.drop 1))
  refine ⟨{ b with
      repeater := ⟨some .l0, 7, none, 0, .q0, 0⟩
      store := { b.store with workingBerth := { b.store.workingBerth with repeaterUnit := 1 } } }, _, rfl, rfl, ?_⟩
  rcases h with h | h | h <;> cases h <;> decide +kernel

theorem witness_ProgrammingEnds_berth : ∃ (s : State) (bytes : List Byte), s.resetting = none
    ∧ s.store.programming = .write .berth bytes ∧ s.sup.call.phase = .idle :=
  ⟨{ idleCall .stowed with store := { ProfileStore.reset with programming := .write .berth [] } }, [], by decide +kernel⟩

/-- The hypotheses of the five invariant statements hold at the reset state (its statement is ResetMeetsTheInvariants), and
of a MOORED call with every line in HOLDING, all blocks told, the ramp permitted. -/
theorem witness_StepKeeps : ∃ s : State, permitsHold s = true ∧ queueForm s.bus.queue = true ∧ attnFollows s = true
    ∧ (∀ l, intentFits s l = true ∧ viewsAgree s l = true) ∧ blocksAgree s ∧ commissionedSafe s = true
    ∧ s.stateOf .l0 = .holding := by
  let b := told .holding .holding .moored
  have h : blocksAgree { b with sup := { b.sup with rampPermit := true, departPermit := false } } :=
    agrees_of (by decide +kernel)
  exact ⟨_, by decide +kernel, by decide +kernel, by decide +kernel, fun l => ⟨(h.2 l).1, (h.2 l).2.1⟩, h,
    by decide +kernel, rfl⟩

end Sys2Proof.Tests
end

section
/-! PROOF. ATTN_S stands at its condition (R171) through every operation of the blocks, and so through every step: `State.Attends`
is carried from operation to operation, in the order of the model's definitions. -/

namespace Sys2Proof.Machine

variable {s t u : State} {l : Line}

/-- No reset is in progress, and ATTN_S is low exactly while RESET_SEEN or a pair of a selected kind is pending (R171). -/
def State.Attends (s : State) : Prop :=
  s.resetting = none ∧ s.shore.attnLow = (s.shore.events.berth.resetSeen || s.shore.events.meets s.shore.mask)

/-- Outside a reset the invariant is `State.Attends`. -/
theorem attnFollows_iff_attends (hr : s.resetting = none) : attnFollows s = true ↔ s.Attends := by
  simp [attnFollows, State.Attends, hr]

theorem State.Attends.follows (h : s.Attends) : attnFollows s = true := (attnFollows_iff_attends h.1).mpr h

/-! ## The state's own operations -/

section
variable (s)

@[simp] theorem setLmu_attends (c : LmuChannel) : (s.setLmu l c).Attends ↔ s.Attends := .rfl
@[simp] theorem setLcu_attends (c : LcuChannel) : (s.setLcu l c).Attends ↔ s.Attends := .rfl
@[simp] theorem drawn_attends : s.drawn.Attends ↔ s.Attends := .rfl

/-- A write of the Shore Port that sets ATTN_S anew needs nothing of the port before (R171). -/
theorem withAttn_attends (p : ShorePort) (hr : s.resetting = none) : (s.setShore p.withAttn).Attends := ⟨hr, rfl⟩

end

theorem attends_ite {c : Prop} [Decidable c] (ht : t.Attends) (hu : u.Attends) : (if c then t else u).Attends := by
  split
  · exact ht
  · exact hu

@[simp] theorem raise_attends (k : EventKind) (g : Tag) (h : s.Attends) : (raise k g s).Attends :=
  withAttn_attends s _ h.1

/-- What ends by raising an event attends, whatever it did before, as long as it began no reset (R171, R178). -/
theorem State.Attends.of_raise {k : EventKind} {g : Tag} (h : s.Attends) (hu : (raise k g u).around = s.around) :
    (raise k g u).Attends :=
  withAttn_attends u _ ((congrArg Outside.resetting (outside_of_around hu)).trans h.1)

theorem foldl_attends {α : Type} (f : State → α → State) (hf : ∀ u x, u.Attends → (f u x).Attends) (items : List α) :
    ∀ u : State, u.Attends → (items.foldl f u).Attends := by
  induction items with
  | nil => exact fun _ h => h
  | cons x xs ih => exact fun u h => ih _ (hf u x h)

theorem inFreeOrder_attends {α : Type} (f : State → α → State) (hf : ∀ u x, u.Attends → (f u x).Attends) (items : List α)
    (h : s.Attends) : (inFreeOrder f items s).Attends :=
  foldl_attends f hf _ _ h

theorem refreshIntent_attends (e : Bool) (h : s.Attends) : (refreshIntent l e s).Attends := by
  unfold refreshIntent
  dsimp only
  split
  · exact h
  · exact attends_ite h h

/-! ## Supervisor -/

theorem evalPermits_attends (h : s.Attends) : (evalPermits s).Attends :=
  attends_ite h (raise_attends _ _ h)

theorem settleAdoption_attends (h : s.Attends) : (settleAdoption s).Attends :=
  attends_ite (attends_ite (raise_attends _ _ h) h) h

@[simp] theorem setRenderInhibit_attends (v : Bool) (h : s.Attends) : (setRenderInhibit l v s).Attends :=
  attends_ite h (evalPermits_attends (raise_attends _ _ h))

@[simp] theorem setRecoverInhibit_attends (v : Bool) (h : s.Attends) : (setRecoverInhibit l v s).Attends :=
  attends_ite h (evalPermits_attends (raise_attends _ _ h))

@[simp] theorem clearInhibits_attends (h : s.Attends) : (clearInhibits l s).Attends :=
  setRecoverInhibit_attends _ (setRenderInhibit_attends _ h)

/-! ## Measurement, detection, drum -/

theorem gateStart_attends (h : s.Attends) : (gateStart l s).Attends := h
theorem repeaterMoved_attends (h : s.Attends) : (repeaterMoved l s).Attends := attends_ite h h
theorem repeaterStep_attends (h : s.Attends) : (repeaterStep l s).Attends := attends_ite h h
theorem signalCounters_attends (h : s.Attends) : (signalCounters l s).Attends := attends_ite h h

theorem softZoneTest_attends (h : s.Attends) : (softZoneTest l s).Attends :=
  attends_ite h (attends_ite (refreshIntent_attends _ h) h)

theorem ownDelivery_attends (m : Sample) (h : s.Attends) : (ownDelivery l m s).Attends := by
  unfold ownDelivery
  dsimp only
  (repeat' split) <;> simp [h]

theorem surgeEnded_attends (h : s.Attends) : (surgeEnded l s).Attends :=
  evalPermits_attends (s := setView l _ _) (raise_attends _ _ h)

theorem surgeStarted_attends (h : s.Attends) : (surgeStarted l s).Attends :=
  evalPermits_attends (attends_ite (raise_attends _ _ h) (raise_attends _ _ h))

/-! ## Line changes -/

theorem notify_attends (old : LineState) (h : s.Attends) : (notify l old s).Attends := h.of_raise (notify_around l old)

theorem enter_attends (n : LineState) (r : Option Resume) (c : Option FaultCause) (h : s.Attends) :
    (enter l n r c s).Attends :=
  have hn := notify_attends (s.lcu.get l).state
    (refreshIntent_attends (decide (n = .tripped)) ((setLcu_attends s ((s.lcu.get l).placed (s.profile l) n r c)).mpr h))
  attends_ite hn hn

@[simp] theorem enterPlain_attends (n : LineState) (h : s.Attends) : (enterPlain l n s).Attends := enter_attends _ _ _ h
@[simp] theorem renotify_attends (h : s.Attends) : (renotify l s).Attends := h.of_raise (renotify_around l)
@[simp] theorem changeResume_attends (r : Resume) (h : s.Attends) : (changeResume l r s).Attends :=
  renotify_attends (s := s.setLcu l _) h

@[simp] theorem lcuRelease_attends (h : s.Attends) : (lcuRelease l s).1.Attends := by
  unfold lcuRelease
  dsimp only
  (repeat' split) <;> simp [h]
@[simp] theorem lcuTrip_attends (h : s.Attends) : (lcuTrip l s).1.Attends := by
  unfold lcuTrip
  dsimp only
  (repeat' split) <;> simp [h]
@[simp] theorem lcuResume_attends (h : s.Attends) : (lcuResume l s).1.Attends := by
  unfold lcuResume
  dsimp only
  (repeat' split) <;> simp [h]

/-! ## Plans -/

@[simp] theorem holdPlan_attends (c : HoldCause) (h : s.Attends) : (holdPlan c s).Attends :=
  attends_ite (raise_attends _ _ h) h
theorem seqReply_attends (c : ReplyCode) (h : s.Attends) : (seqReply l c s).Attends :=
  attends_ite (holdPlan_attends _ h) h

theorem lcuHanded_attends (x : Handed) (h : s.Attends) : (lcuHanded x s).1.Attends := by
  unfold lcuHanded
  split
  · exact lcuRelease_attends h
  · exact lcuTrip_attends h
  · exact lcuResume_attends h

theorem takeStepCommand_attends (x : Handed) (h : s.Attends) : (takeStepCommand s x).Attends :=
  seqReply_attends _ (lcuHanded_attends x h)

/-- Commands handed on, at once or on their way (R115). -/
theorem hand_attends (take : State → Handed → State) (ht : ∀ u x, u.Attends → (take u x).Attends) (x : List Handed)
    (h : s.Attends) : (hand take x s).Attends :=
  attends_ite (inFreeOrder_attends take ht x h) h

theorem issueCheck_attends (h : s.Attends) : (issueCheck s).Attends := by
  unfold issueCheck
  split
  · exact h
  · exact attends_ite (hand_attends _ (fun _ => takeStepCommand_attends) _ h) (holdPlan_attends _ h)

theorem advanceStep_attends (h : s.Attends) : (advanceStep s).Attends := h.of_raise advanceStep_around

@[simp] theorem seqNotice_attends (e : Bool) (h : s.Attends) : (seqNotice l e s).Attends :=
  attends_ite (attends_ite (holdPlan_attends _ h) (attends_ite (advanceStep_attends h) h)) h

theorem takeHanded_attends (x : Handed) (h : s.Attends) : (takeHanded s x).Attends :=
  attends_ite (seqNotice_attends _ (lcuHanded_attends x h)) (seqReply_attends _ (lcuHanded_attends x h))

@[simp] theorem startPlan_attends (m : Master) (x : List PlanStep) (h : s.Attends) : (startPlan m x s).Attends :=
  h.of_raise (startPlan_around m x)
@[simp] theorem abortPlan_attends (c : AbortCause) (h : s.Attends) : (abortPlan c s).Attends :=
  h.of_raise (abortPlan_around c)
@[simp] theorem resumePlan_attends (h : s.Attends) : (resumePlan s).Attends := h.of_raise resumePlan_around
theorem seqTripAll_attends (h : s.Attends) : (seqTripAll s).Attends := attends_ite (abortPlan_attends _ h) h

theorem planSubmit_attends (d : Sender) (x : List PlanStepField) (h : s.Attends) : (planSubmit d x s).1.Attends := by
  unfold planSubmit
  (repeat' split) <;> simp [h]
theorem planHold_attends (h : s.Attends) : (planHold s).1.Attends := by
  unfold planHold
  split <;> simp [h]
theorem planAbort_attends (h : s.Attends) : (planAbort s).1.Attends := by
  unfold planAbort
  split <;> simp [h]
theorem planResume_attends (d : Sender) (h : s.Attends) : (planResume d s).1.Attends := by
  unfold planResume
  dsimp only
  (repeat' split) <;> simp [h]

theorem seqDelayExpiry_attends (h : s.Attends) : (seqDelayExpiry s).Attends := attends_ite (issueCheck_attends h) h
theorem seqStepTimeout_attends (h : s.Attends) : (seqStepTimeout s).Attends := attends_ite (holdPlan_attends _ h) h
theorem seqPanel_attends (a b c : Bool) (h : s.Attends) : (seqPanel a b c s).Attends :=
  attends_ite (holdPlan_attends _ h) h

/-! ## Profiles in use, and whole changes of a line -/

theorem applyLine_attends (b : Bool) (h : s.Attends) : (applyLine l b s).Attends := by
  have ha := applyLine_around (s := s) l b
  unfold applyLine at ha ⊢
  exact h.of_raise ha
theorem applyBerth_attends (h : s.Attends) : (applyBerth s).Attends := h.of_raise applyBerth_around
theorem storeNotice_attends (h : s.Attends) : (storeNotice l s).Attends := attends_ite (applyLine_attends _ h) h

@[simp] theorem changeLine_attends (n : LineState) (r : Option Resume) (h : s.Attends) : (changeLine l n r s).Attends :=
  storeNotice_attends (seqNotice_attends _ (enter_attends _ _ _ h))

theorem supFault_attends (c : FaultCause) (h : s.Attends) : (supFault l c s).Attends := h

@[simp] theorem fault_attends (c : FaultCause) (h : s.Attends) : (fault l c s).Attends := by
  unfold fault
  split
  · exact h
  · exact supFault_attends _ (raise_attends _ _ h)
  · exact storeNotice_attends (seqNotice_attends _ (supFault_attends _ (raise_attends _ _ (enter_attends _ _ _ h))))

/-! ## Line events -/

@[simp] theorem lockLine_attends (h : s.Attends) : (lockLine l s).Attends := clearInhibits_attends (s := s.setLcu l _) h

@[simp] theorem takeRender_attends (x : Int) (h : s.Attends) : (takeRender l x s).Attends :=
  attends_ite h (attends_ite (setRenderInhibit_attends _ h) (raise_attends _ _ (changeLine_attends (s := s.setReg l _) _ _ h)))

@[simp] theorem takeSlack_attends (h : s.Attends) : (takeSlack l s).Attends :=
  attends_ite h (attends_ite (setRecoverInhibit_attends _ h) (changeLine_attends _ _ h))

theorem takeConfirmation_attends (k : Condition) (e : LineState) (x : Int) (h : s.Attends) :
    (takeConfirmation l k e x s).Attends := by
  unfold takeConfirmation
  (repeat' split) <;> simp [h]

theorem takeConfirmations_attends (e : LineState) (x : Int) (r : Conditions Confirmation) (h : s.Attends) :
    (takeConfirmations l e x r s).Attends :=
  foldl_attends _ (fun _ k hu => attends_ite hu (takeConfirmation_attends k e x hu)) _ _ h

theorem surgeChanges_attends (b : Bool) (h : s.Attends) : (surgeChanges l b s).Attends :=
  attends_ite (surgeEnded_attends h) (surgeStarted_attends h)

theorem supOverload_attends (x : Int) (h : s.Attends) : (supOverload l x s).Attends := h

theorem detectorSample_attends (m : Sample) (h : s.Attends) : (detectorSample l m s).Attends := by
  have ht (c : Prop) [Decidable c] (d : DetectorChannel) :
      (if c then supOverload l m.tF (signalCounters l (s.setDet l d)) else signalCounters l (s.setDet l d)).Attends :=
    have hc : (signalCounters l (s.setDet l d)).Attends := signalCounters_attends (s := s.setDet l d) h
    attends_ite (supOverload_attends _ hc) hc
  exact attends_ite h (attends_ite (takeConfirmations_attends _ _ _ (ht _ _))
    (attends_ite (surgeChanges_attends _ (takeConfirmations_attends (s := State.drawn _) _ _ _ (ht _ _)))
      (takeConfirmations_attends _ _ _ (surgeChanges_attends (s := State.drawn _) _ (ht _ _)))))

@[simp] theorem setSpeed_attends (v : Nat) (h : s.Attends) : (setSpeed l v s).Attends :=
  attends_ite (refreshIntent_attends (s := s.setReg l _) _ h) h
@[simp] theorem endRender_attends (h : s.Attends) : (endRender l s).Attends := h.of_raise (endRender_around l)

theorem regulatorSample_attends (m : Sample) (h : s.Attends) : (regulatorSample l m s).Attends := by
  unfold regulatorSample
  dsimp only
  (repeat' split) <;> simp [h]

@[simp] theorem renderCutOff_attends (p : Bool) (h : s.Attends) : (renderCutOff l p s).Attends :=
  have hu := setRenderInhibit_attends (l := l) true (changeLine_attends (l := l) .holding none (endRender_attends (l := l) h))
  attends_ite (attends_ite (raise_attends _ _ hu) hu) (endRender_attends h)

@[simp] theorem easeFails_attends (h : s.Attends) : (easeFails l s).Attends :=
  seqNotice_attends _ (raise_attends _ _ (enterPlain_attends _ h))

@[simp] theorem cutOff_attends (a p : Bool) (h : s.Attends) : (cutOff l a p s).Attends := by
  unfold cutOff
  dsimp only
  (repeat' split) <;> simp [h]

theorem regulatorPosition_attends (b : Bool) (h : s.Attends) : (regulatorPosition l b s).Attends := by
  unfold regulatorPosition
  dsimp only
  (repeat' split) <;> simp [h]

@[simp] theorem derive_attends (r : SensedStatus) (h : s.Attends) : (derive l r s).Attends := by
  unfold derive
  dsimp only
  (repeat' split) <;> simp [h]

theorem lcuSample_attends (m : Sample) (h : s.Attends) : (lcuSample l m s).Attends := by
  unfold lcuSample
  dsimp only
  (repeat' split) <;> simp [h]

@[simp] theorem latchTest_attends (r : SensedStatus) (h : s.Attends) : (latchTest l r s).1.Attends := by
  unfold latchTest
  dsimp only
  (repeat' split) <;> simp [h]

@[simp] theorem stowTest_attends (r : SensedStatus) (h : s.Attends) : (stowTest l r s).Attends :=
  attends_ite (changeLine_attends _ _ h) h

@[simp] theorem statusTests_attends (p : Option SensedStatus) (r : SensedStatus) (h : s.Attends) :
    (statusTests l p r s).Attends := by
  unfold statusTests
  dsimp only
  (repeat' split) <;> simp [h]

@[simp] theorem lcuStatus_attends (r : SensedStatus) (f : Bool) (h : s.Attends) : (lcuStatus l r f s).Attends := by
  unfold lcuStatus
  dsimp only
  (repeat' split) <;> simp [h]

theorem attachExpires_attends (h : s.Attends) : (attachExpires l s).Attends :=
  attends_ite (raise_attends _ _ (changeLine_attends _ _ h)) h
theorem easeExpires_attends (h : s.Attends) : (easeExpires l s).Attends := attends_ite (easeFails_attends h) h
theorem tensionExpires_attends (h : s.Attends) : (tensionExpires l s).Attends := attends_ite (fault_attends _ h) h
theorem latchExpires_attends (h : s.Attends) : (latchExpires l s).Attends := attends_ite (fault_attends _ h) h
theorem rewindExpires_attends (h : s.Attends) : (rewindExpires l s).Attends := attends_ite (fault_attends _ h) h
theorem adoptionExpires_attends (h : s.Attends) : (adoptionExpires l s).Attends := attends_ite (fault_attends _ h) h

@[simp] theorem lcuAttach_attends (h : s.Attends) : (lcuAttach l s).1.Attends := by
  unfold lcuAttach
  dsimp only
  (repeat' split) <;> simp [h]
@[simp] theorem lcuCancel_attends (h : s.Attends) : (lcuCancel l s).1.Attends := by
  unfold lcuCancel
  dsimp only
  (repeat' split) <;> simp [h]
@[simp] theorem lcuRewind_attends (h : s.Attends) : (lcuRewind l s).1.Attends := by
  unfold lcuRewind
  dsimp only
  (repeat' split) <;> simp [h]
@[simp] theorem lcuSetTarget_attends (n : Nat) (h : s.Attends) : (lcuSetTarget l n s).1.Attends := h
@[simp] theorem lcuRebase_attends (h : s.Attends) : (lcuRebase l s).1.Attends := by
  unfold lcuRebase
  split <;> simp [h]
@[simp] theorem lcuZero_attends (h : s.Attends) : (lcuZero l s).1.Attends := by
  unfold lcuZero
  split <;> exact h
@[simp] theorem lcuClearFault_attends (h : s.Attends) : (lcuClearFault l s).1.Attends := by
  unfold lcuClearFault
  split
  · exact changeLine_attends (s := State.setBus _ _) _ _ h
  · exact h

theorem lineCommand_attends (c : LineCommand) (h : s.Attends) : (lineCommand l c s).1.Attends := by
  unfold lineCommand
  cases c <;> dsimp only <;> (repeat' split) <;> simp [h]

theorem tripLines_attends (h : s.Attends) : (tripLines s).Attends :=
  inFreeOrder_attends _ (fun _ _ => lcuTrip_attends) _ h

theorem tripAll_attends (h : s.Attends) : (tripAll s).Attends :=
  have ht := seqTripAll_attends h
  attends_ite (tripLines_attends ht)
    (evalPermits_attends (settleAdoption_attends (s := setAdoption false _) (tripLines_attends (s := setAdoption true _) ht)))

/-! ## Samples, positions, transactions -/

theorem takeSample_attends (m : Sample) (r : Recipient) (h : s.Attends) : (takeSample l m s r).Attends := by
  cases r with
  | detector => exact detectorSample_attends m h
  | regulator => exact regulatorSample_attends m h
  | lcu => exact lcuSample_attends m h
  | bus => exact h
  | own => exact ownDelivery_attends m h
  | drum => exact h
  | gate => exact attends_ite (gateStart_attends h) h

theorem deliver_attends (m : Sample) (h : s.Attends) : (deliver l m s).Attends :=
  foldl_attends _ (fun _ => takeSample_attends m) _ _ h
theorem completeGood_attends (n : Nat) (h : s.Attends) : (completeGood l n s).Attends := deliver_attends (s := s.setLmu l _) _ h
theorem completeNoSignal_attends (h : s.Attends) : (completeNoSignal l s).Attends := deliver_attends (s := s.setLmu l _) _ h
theorem sampleBoundary_attends (h : s.Attends) : (sampleBoundary l s).Attends := attends_ite h (attends_ite h h)
theorem holdExpires_attends (h : s.Attends) : (holdExpires l s).Attends := attends_ite h (raise_attends _ _ h)

theorem handPosition_attends (a b : Bool) (h : s.Attends) : (handPosition l a b s).Attends :=
  regulatorPosition_attends _ (softZoneTest_attends (attends_ite (repeaterStep_attends h) (repeaterMoved_attends h)))

theorem illegalChange_attends (q : Quad) (h : s.Attends) : (illegalChange l q s).Attends :=
  attends_ite (fault_attends _ (repeaterMoved_attends (softZoneTest_attends (s := s.setDrum l _) h))) h

theorem decodePair_attends (q : Quad) (h : s.Attends) : (decodePair l q s).Attends :=
  have hl (d : Int) : (legalStep l q d s).Attends := handPosition_attends (s := s.setDrum l _) _ _ h
  attends_ite h (attends_ite h (attends_ite (hl _) (attends_ite (hl _) (illegalChange_attends q h))))

theorem stationaryExpires_attends (h : s.Attends) : (stationaryExpires l s).Attends := attends_ite h (attends_ite h h)

@[simp] theorem drumStatus_attends (r : SensedStatus) (h : s.Attends) : (drumStatus l r s).Attends :=
  attends_ite h (handPosition_attends (s := s.setDrum l _) _ _ h)

theorem takeStatus_attends (r : SensedStatus) (f : Bool) (h : s.Attends) : (takeStatus l r f s).Attends := by
  unfold takeStatus
  (repeat' split) <;> simp [h]

theorem startTransaction_attends (h : s.Attends) : (startTransaction s).Attends := by
  unfold startTransaction
  split <;> exact h
theorem completeCommand_attends (h : s.Attends) : (completeCommand s).Attends := by
  unfold completeCommand
  split <;> exact h
theorem completeStatus_attends (b : StatusBytes) (h : s.Attends) : (completeStatus b s).Attends := by
  unfold completeStatus
  split
  · exact takeStatus_attends (s := s.setBus _) _ _ h
  · exact h
theorem failTransaction_attends (p : FailurePhase) (n : BusActivity) (h : s.Attends) : (failTransaction p n s).Attends := by
  unfold failTransaction
  split
  · exact h
  · exact attends_ite (fault_attends (s := s.setBus _) _ h) h

/-! ## The call and the panel -/

theorem closeCall_attends (m : Master) (h : s.Attends) : (closeCall m s).Attends := by
  unfold closeCall
  refine attends_ite (applyBerth_attends ?_) ?_ <;> exact h.of_raise (by simp; rfl)

theorem bindCall_attends (c : Half) (x : LineSet) (h : s.Attends) : (bindCall c x s).1.Attends := by
  have ho : (openCall c x s).Attends := h.of_raise (openCall_around c x)
  have ha : (bindAdopted c x s).Attends := h.of_raise (bindAdopted_around c x)
  unfold bindCall
  dsimp only
  (repeat' split) <;> simp [h, ho, ha]

theorem closeIfClear_attends (m : Master) (h : s.Attends) : (closeIfClear m s).1.Attends := by
  unfold closeIfClear
  (repeat' split) <;> simp [h, closeCall_attends]
theorem unbindCall_attends (h : s.Attends) : (unbindCall s).1.Attends := by
  unfold unbindCall
  split
  · exact h
  · exact closeIfClear_attends _ h
theorem closeByShore_attends (h : s.Attends) : (closeByShore s).1.Attends := by
  unfold closeByShore
  split
  · exact h
  · exact closeIfClear_attends _ h
theorem attachTaken_attends (x : Sender) (r : State × Reply) (h : r.1.Attends) : (attachTaken x s r).1.Attends := by
  unfold attachTaken
  split <;> exact h

theorem panelChanged_attends (i : PanelInput) (a : Bool) (h : s.Attends) : (panelChanged i a s).Attends := by
  have ht : (tellPanel s).Attends := h
  cases i with
  | trip => exact h.of_raise (panelChanged_around .trip a)
  | stop => exact h.of_raise (panelChanged_around .stop a)
  | rampClear => exact evalPermits_attends (seqPanel_attends _ _ _ ht)

theorem panelRaw_attends (i : PanelInput) (b : Bool) (h : s.Attends) : (panelRaw i b s).Attends := attends_ite h h
theorem panelSettles_attends (i : PanelInput) (h : s.Attends) : (panelSettles i s).Attends :=
  attends_ite h (attends_ite h (panelChanged_attends (s := s.setSup _) _ _ h))

end Sys2Proof.Machine
end

section
/-! PROOF. ATTN_S through the Profile Store, a reset, the ports and the commands, and the step (R171). -/

namespace Sys2Proof.Machine

variable {s : State} {l : Line}

/-! ## Profiles -/

theorem withRecord_attends (b : Byte) (f : RecordName → State × Reply) (h : s.Attends) (hf : ∀ r, (f r).1.Attends) :
    (withRecord b s f).1.Attends := by
  unfold withRecord
  split
  · exact h
  · exact hf _

theorem readProfile_attends (r : RecordName) (h : s.Attends) : (readProfile r s).1.Attends := by
  unfold readProfile
  dsimp only
  (repeat' split) <;> exact h
theorem writeProfile_attends (r : RecordName) (b : List Byte) (h : s.Attends) : (writeProfile r b s).1.Attends := by
  unfold writeProfile
  dsimp only
  (repeat' split) <;> exact h
theorem lockProfile_attends (r : RecordName) (h : s.Attends) : (lockProfile r s).1.Attends := by
  unfold lockProfile
  split <;> exact h
theorem commissionProfile_attends (r : RecordName) (h : s.Attends) : (commissionProfile r s).1.Attends := by
  unfold commissionProfile
  dsimp only
  (repeat' split) <;> exact h
theorem verifyStore_attends (h : s.Attends) : (verifyStore s).1.Attends := by
  unfold verifyStore
  split <;> exact h

theorem applyRecord_attends (r : RecordName) (h : s.Attends) : (applyRecord r s).Attends := by
  cases r with
  | line l => exact applyLine_attends false h
  | berth => exact applyBerth_attends h

theorem writeEnds_attends (b : List Byte) (h : s.Attends) : (writeEnds b s).Attends := by
  unfold writeEnds
  split
  · exact attends_ite (attends_ite (applyRecord_attends (s := s.setStore _) _ h) h)
      (raise_attends (s := s.setStore _) _ _ h)
  · exact h
  · exact h

theorem lockEnds_attends (h : s.Attends) : (lockEnds s).Attends := by
  unfold lockEnds
  split
  · exact raise_attends (s := s.setStore _) _ _ h
  · exact h
  · exact h

/-! ## Resets -/

/-- ATTN_S is high from the beginning of a reset (R193). -/
theorem beginReset_attnFollows (c : ResetCause) (s : State) : attnFollows (beginReset c s) = true := rfl

theorem raiseBad_attends (h : s.Attends) : (raiseBad s).Attends :=
  have ht := foldl_attends (fun u l => if (u.store.stored.lines.get l).checkGood then u else raise .store (.line l) u)
    (fun _ _ hu => attends_ite hu (raise_attends _ _ hu)) Line.all s h
  attends_ite ht (raise_attends _ _ ht)

/-- A reset completes with RESET_SEEN pending and ATTN_S low (R171, R185). -/
theorem completeReset_attends (s : State) : (completeReset s).Attends :=
  evalPermits_attends (settleAdoption_attends (raiseBad_attends ⟨rfl, rfl⟩))

/-! ## Requests -/

theorem readEvents_attends (h : s.Attends) : (readEvents s).1.Attends := withAttn_attends s _ h.1
theorem setMask_attends (m : KindSet) (h : s.Attends) : (setMask m s).1.Attends := withAttn_attends s _ h.1
theorem ackReset_attends (x : Sender) (h : s.Attends) : (ackReset x s).1.Attends := by
  cases x with
  | shore => exact withAttn_attends s _ h.1
  | vessel code => exact h
theorem setReporting_attends (m : ReportModeField) (n : Nat) (x : KindSet) (h : s.Attends) :
    (setReporting m n x s).1.Attends := by
  cases m <;> exact h

/-- Every owner keeps ATTN_S at its condition (R163, R171). -/
theorem owner_attends (x : Sender) (r : Request) (h : s.Attends) : (owner x r s).1.Attends := by
  cases r with
  | lineCommand b c =>
    unfold owner
    dsimp only
    split
    · split
      · exact attachTaken_attends _ _ (lineCommand_attends _ h)
      · exact lineCommand_attends _ h
    · exact h
  | tripAll => exact tripAll_attends h
  | planSubmit steps => exact planSubmit_attends _ _ h
  | planHold => exact planHold_attends h
  | planResume => exact planResume_attends _ h
  | planAbort => exact planAbort_attends h
  | bind lines =>
    cases x with
    | vessel code => exact bindCall_attends _ _ h
    | shore => exact h
  | unbind => exact unbindCall_attends h
  | closeCall => exact closeByShore_attends h
  | readProfile b => exact withRecord_attends _ _ h fun _ => readProfile_attends _ h
  | writeProfile b bytes => exact withRecord_attends _ _ h fun _ => writeProfile_attends _ _ h
  | lockProfile b => exact withRecord_attends _ _ h fun _ => lockProfile_attends _ h
  | commissionProfile b => exact withRecord_attends _ _ h fun _ => commissionProfile_attends _ h
  | verifyStore => exact verifyStore_attends h
  | readLine b =>
    unfold owner
    dsimp only
    split <;> exact h
  | readEvents => exact readEvents_attends h
  | setMask mask => exact setMask_attends _ h
  | ackReset => exact ackReset_attends _ h
  | setReporting mode interval mask => exact setReporting_attends _ _ _ h
  | _ => exact h

theorem takeRequest_attends (x : Sender) (b : Bool) (r : Request) (h : s.Attends) : (takeRequest x b r s).1.Attends := by
  unfold takeRequest
  split
  · split <;> exact h
  · exact owner_attends _ _ h

/-! ## Vessel Port -/

theorem takeTx_attends (h : s.Attends) : (takeTx s).Attends := by
  obtain ⟨v, hv, -⟩ := takeTx_spec s
  rw [hv]
  exact h

theorem decodeWaiting_attends (h : s.Attends) : (decodeWaiting s).Attends := by
  unfold decodeWaiting
  split
  · exact takeRequest_attends (s := s.setVessel _) _ _ _ h
  · exact h

theorem serveVessel_attends (h : s.Attends) : (serveVessel s).Attends :=
  takeTx_attends (decodeWaiting_attends (takeTx_attends h))

theorem placeMessage_attends (m : VesselMessage) (h : s.Attends) : (placeMessage m s).Attends := by
  unfold placeMessage
  split <;> exact h

theorem messageReceived_attends (h : s.Attends) : (messageReceived s).Attends := by
  unfold messageReceived
  split
  · exact h
  · exact attends_ite h (attends_ite (serveVessel_attends (placeMessage_attends (s := s.setVessel _) _ h)) h)

theorem byteReceived_attends (b : Byte) (g : Bool) (h : s.Attends) : (byteReceived b g s).Attends := by
  unfold byteReceived
  dsimp only
  split
  · exact attends_ite h h
  · exact attends_ite h (attends_ite h h)

theorem gapExpires_attends (h : s.Attends) : (gapExpires s).Attends := attends_ite h h
theorem reportExpires_attends (h : s.Attends) : (reportExpires s).Attends := attends_ite h h
theorem transmitEnds_attends (h : s.Attends) : (transmitEnds s).Attends := by
  unfold transmitEnds
  split
  · exact h
  · exact serveVessel_attends (s := s.setVessel _) h

/-! ## Shore Port -/

theorem answerShore_attends (f : ShoreFrame) (h : s.Attends) : (answerShore f s).Attends :=
  attends_ite (completeReset_attends _) (takeRequest_attends .shore f.formOk f.request h)

theorem shoreDecodeEnds_attends (h : s.Attends) : (shoreDecodeEnds s).Attends := by
  unfold shoreDecodeEnds
  split
  · exact answerShore_attends _ h
  · exact h
  · exact h

theorem frameStarts_attends (h : s.Attends) : (frameStarts s).Attends := attends_ite h h

theorem takeFrame_attends (f : ShoreFrame) (h : s.Attends) : (takeFrame f s).Attends := by
  unfold takeFrame
  dsimp only
  split <;> exact h

theorem frameReleased_attends (n : Nat) (b : Bool) (f : List Byte) (h : s.Attends) : (frameReleased n b f s).Attends := by
  have hp : (s.setPins { s.pins with selected := false }).Attends := h
  exact attends_ite h (attends_ite h (attends_ite (takeFrame_attends _ hp) h))

/-- Every request of a master keeps ATTN_S at its condition (R163, R171). -/
theorem request_attends (x : Sender) (r : Request) (h : s.Attends) : (request x r s).Attends := by
  cases x with
  | shore =>
    show (shoreRequest r s).Attends
    unfold shoreRequest
    split
    · exact attends_ite (answerShore_attends _ h) h
    · exact answerShore_attends _ h
    · exact answerShore_attends _ h
  | vessel code => exact serveVessel_attends (placeMessage_attends _ h)

/-! ## Commands and the step -/

/-- A command is taken outside a reset alone, so what it does need keep the invariant only there (R193). -/
theorem whenRunning_attnFollows {f : State → State} (hf : ∀ {u : State}, u.Attends → (f u).Attends)
    (h : attnFollows s = true) : attnFollows (whenRunning f s) = true := by
  unfold whenRunning
  split
  · exact h
  · next hr =>
    have hs : s.Attends := (attnFollows_iff_attends (by simpa using hr)).mp h
    exact (takeTx_attends (hf hs)).follows

/-- Every command answers with a next state, in which ATTN_S stands at its condition if it did before (R171). -/
theorem exec_attnFollows (i : Instr) (h : attnFollows s = true) : ∃ t, exec i s = .next t ∧ attnFollows t = true := by
  have run {f : State → State} (hf : ∀ {u : State}, u.Attends → (f u).Attends) : attnFollows (whenRunning f s) = true :=
    whenRunning_attnFollows hf h
  cases i with
  | powerOn => exact ⟨_, rfl, beginReset_attnFollows _ s⟩
  | pinReset => exact ⟨_, rfl, beginReset_attnFollows _ s⟩
  | resetCompletion =>
    refine ⟨_, rfl, ?_⟩
    split
    · exact (completeReset_attends s).follows
    · exact h
  | sampleBoundary l => exact ⟨_, rfl, run sampleBoundary_attends⟩
  | goodSample l ticks => exact ⟨_, rfl, run fun hu => attends_ite (completeGood_attends _ hu) hu⟩
  | gateDeadline l => exact ⟨_, rfl, run fun hu => attends_ite hu (completeNoSignal_attends hu)⟩
  | tickCountOverflow l => exact ⟨_, rfl, run fun hu => attends_ite (completeNoSignal_attends hu) hu⟩
  | holdTimerExpiry l => exact ⟨_, rfl, run holdExpires_attends⟩
  | gateOpeningEdge l => exact ⟨_, rfl, run fun hu => attends_ite hu hu⟩
  | encoderChange l a b => exact ⟨_, rfl, whenRunning_attnFollows (s := s.setPins _) (decodePair_attends _) h⟩
  | stationaryExpiry l => exact ⟨_, rfl, run stationaryExpires_attends⟩
  | flankExpiry => exact ⟨_, rfl, run fun hu => hu⟩
  | attachExpired l => exact ⟨_, rfl, run attachExpires_attends⟩
  | easeFailed l => exact ⟨_, rfl, run easeExpires_attends⟩
  | tensionTimeout l => exact ⟨_, rfl, run tensionExpires_attends⟩
  | latchStuck l => exact ⟨_, rfl, run latchExpires_attends⟩
  | rewindTimeout l => exact ⟨_, rfl, run rewindExpires_attends⟩
  | adoptionLatchExpiry l => exact ⟨_, rfl, run adoptionExpires_attends⟩
  | stepDelayExpiry => exact ⟨_, rfl, run seqDelayExpiry_attends⟩
  | stepTimeout => exact ⟨_, rfl, run seqStepTimeout_attends⟩
  | panelInputChange input level =>
    refine ⟨_, rfl, ?_⟩
    split
    · exact h
    · exact run (panelRaw_attends _ _)
  | panelStabilityExpiry input => exact ⟨_, rfl, run (panelSettles_attends _)⟩
  | transactionStart => exact ⟨_, rfl, run startTransaction_attends⟩
  | commandComplete => exact ⟨_, rfl, run completeCommand_attends⟩
  | statusComplete bytes => exact ⟨_, rfl, run (completeStatus_attends _)⟩
  | transactionFailed why => exact ⟨_, rfl, run fun hu => attends_ite (failTransaction_attends _ _ hu) hu⟩
  | busStuck => exact ⟨_, rfl, run (failTransaction_attends _ _)⟩
  | busRecoveryEnd => exact ⟨_, rfl, run fun hu => attends_ite hu hu⟩
  | frameStart =>
    refine ⟨_, rfl, ?_⟩
    split
    · exact h
    · exact run frameStarts_attends
  | frameRelease count midByte frame =>
    refine ⟨_, rfl, ?_⟩
    split
    · exact h
    · exact run (frameReleased_attends _ _ _)
  | vesselMessageReceived => exact ⟨_, rfl, run messageReceived_attends⟩
  | gapTimerExpiry => exact ⟨_, rfl, run gapExpires_attends⟩
  | transmitEnd => exact ⟨_, rfl, run transmitEnds_attends⟩
  | reportTimerExpiry => exact ⟨_, rfl, run reportExpires_attends⟩
  | shoreDecodeEnd => exact ⟨_, rfl, run shoreDecodeEnds_attends⟩
  | vesselByteReceived byte goodStop =>
    exact ⟨_, rfl, run fun hu => byteReceived_attends _ _ (messageReceived_attends hu)⟩
  | writeProgrammingEnd readBack => exact ⟨_, rfl, run (writeEnds_attends _)⟩
  | lockProgrammingEnd => exact ⟨_, rfl, run lockEnds_attends⟩
  -- Every other command is a request of a master.
  | _ => exact ⟨_, rfl, run (request_attends _ _)⟩

/-- What comes on an empty queue: an event that is due, a mark or a command of the Sequencer, or one millisecond. -/
theorem idle_attnFollows (h : attnFollows s = true) : ∃ t, idle s = .next t ∧ attnFollows t = true := by
  unfold idle
  split
  · exact ⟨s, rfl, h⟩
  · next hr =>
    have hs : s.Attends := (attnFollows_iff_attends (by simpa using hr)).mp h
    split
    · exact exec_attnFollows (s := s.drawn) _ h
    · exact ⟨_, rfl, h⟩
    · exact ⟨_, rfl, (takeTx_attends (takeHanded_attends (s := { s.drawn with handed := _ }) _ hs)).follows⟩
    · exact ⟨_, rfl, h⟩

theorem step_attnFollows (h : attnFollows s = true) : ∃ t, step s = .next t ∧ attnFollows t = true := by
  unfold step
  split
  · exact exec_attnFollows (s := { s with pending := _ }) _ h
  · exact idle_attnFollows h

/-- Settles O58: every operation of the blocks keeps ATTN_S at its condition, since it changes the pending set and the mask only
together with ATTN_S. -/
theorem stepKeepsAttention : Obligations.StepKeepsAttention := by
  unfold Obligations.StepKeepsAttention
  intro s t h hst
  obtain ⟨u, hu, hf⟩ := step_attnFollows h
  obtain rfl : u = t := Host.Outcome.next.inj (hu.symm.trans hst)
  exact hf

end Sys2Proof.Machine
end

section
/-! PROOF. READ_EVENTS, SET_MASK, ACK_RESET and CLEAR_CAPTURES (R145, R165, R171, R179). -/

namespace Sys2Proof.Machine

variable {s t : State}

/-! ## The pending set and the mask -/

@[simp] theorem KindSet.none_has (k : EventKind) : KindSet.none.has k = false := by cases k <;> rfl

@[simp] theorem KindSet.none_meets (mask : KindSet) : KindSet.none.meets mask = false := by simp [KindSet.meets]

/-- After READ_EVENTS only RESET_SEEN can be pending, so that ATTN_S follows it alone, whatever the mask (R171, R179). -/
theorem EventSet.cleared_attention (e : EventSet) (mask : KindSet) :
    (e.cleared.berth.resetSeen || e.cleared.meets mask) = e.berth.resetSeen := by
  have hl : (e.cleared.lines.anyB fun _ k => k.meets mask) = false := by
    simp [Bool.eq_false_iff, Lines.anyB_iff, EventSet.cleared]
  cases hr : e.berth.resetSeen with
  | true => simp [EventSet.cleared, hr]
  | false =>
    have hb : e.cleared.berth = KindSet.none := by simp [EventSet.cleared, hr, KindSet.none]
    simp [EventSet.meets, hl, hb]
    rfl

theorem readEvents_state (s : State) :
    (readEvents s).1 = { s with shore := { s.shore with
      events := ⟨Lines.const KindSet.none, { KindSet.none with resetSeen := s.shore.events.berth.resetSeen }⟩
      attnLow := s.shore.events.berth.resetSeen } } := by
  simp only [readEvents, ShorePort.withAttn, EventSet.cleared_attention]
  rfl

/-! ## A vessel's request past its owner -/

/-- The owner's answer to a vessel's request, its reply in the reply place (R174). -/
def replyPlaced (code : Half) (r : Request) (x : State × Reply) : State :=
  x.1.setVessel { x.1.vessel with
    replyPlace := some ⟨x.1.store.workingBerth.berthCode, code, replyKind (vesselKind r), x.2⟩ }

/-- A transmitter with a reply to send is sending afterwards, and leaves the pending set to a later report (R175, R177). -/
theorem takeTx_of_reply (h : s.vessel.replyPlace.isSome) :
    (takeTx s).vessel.tx ≠ .idle ∧ (takeTx s).vessel.events = s.vessel.events := by
  obtain ⟨r, hr⟩ := Option.isSome_iff_exists.mp h
  unfold takeTx
  dsimp only
  split
  · next m hm => exact ⟨by simp [hm], rfl⟩
  · rw [hr]
    exact ⟨nofun, rfl⟩

/-- The Vessel Port with a message in its waiting place. -/
def State.withWaiting (s : State) (m : VesselMessage) : State := s.setVessel { s.vessel with waiting := some m }

/-- A waiting message is decoded from the state in which it does not wait (R174). -/
theorem decodeWaiting_withWaiting {code : Half} {r : Request} (hw : s.vessel.waiting = none) (hp : s.vessel.replyPlace = none)
    (hr : refusal s (.vessel code) true r = none) :
    decodeWaiting (s.withWaiting ⟨code, vesselKind r, r, true⟩) = replyPlaced code r (owner (.vessel code) r s) := by
  have hback : (s.withWaiting ⟨code, vesselKind r, r, true⟩).setVessel { s.vessel with waiting := none } = s := by
    rw [← hw]
    rfl
  have htake : takeRequest (.vessel code) true r s = owner (.vessel code) r s := by
    unfold takeRequest
    rw [hr]
  have hplace : (s.withWaiting ⟨code, vesselKind r, r, true⟩).vessel.replyPlace = none := hp
  unfold decodeWaiting
  rw [hplace]
  show replyPlaced code r (takeRequest _ true r (State.setVessel _ { s.vessel with waiting := none })) = _
  rw [hback, htake]

/-- An admitted request of a vessel leaves its owner's state, the reply with the transmitter (R174, R175). -/
theorem vesselRequest_served {code : Half} {r : Request} (h : admitted s (.vessel code) r = true) :
    whenRunning (request (.vessel code) r) s = takeTx (replyPlaced code r (owner (.vessel code) r s)) := by
  simp only [admitted, Bool.and_eq_true, Option.isNone_iff_eq_none] at h
  obtain ⟨⟨hreset, hfree⟩, hpass⟩ := h
  obtain ⟨hw, hp, htx⟩ : s.vessel.waiting = none ∧ s.vessel.replyPlace = none
      ∧ (s.vessel.tx ≠ .idle ∨ s.vessel.reportOwed = false) := by simpa [free, and_assoc] using hfree
  let m : VesselMessage := ⟨code, vesselKind r, r, true⟩
  have hplaced : placeMessage m s = s.withWaiting m := by
    unfold placeMessage
    rw [hw]
    rfl
  calc whenRunning (request (.vessel code) r) s
      = takeTx (takeTx (decodeWaiting (takeTx (placeMessage m s)))) := running_event _ hreset
    _ = takeTx (takeTx (decodeWaiting (s.withWaiting m))) := by
      rw [hplaced, takeTx_settled (u := s.withWaiting m) (htx.imp_right fun ho => ⟨hp, ho⟩)]
    _ = takeTx (takeTx (replyPlaced code r (owner (.vessel code) r s))) := by rw [decodeWaiting_withWaiting hw hp hpass]
    _ = takeTx (replyPlaced code r (owner (.vessel code) r s)) :=
      takeTx_busy (takeTx_of_reply (s := replyPlaced _ _ _) rfl).1

/-! ## The requests -/

/-- READ_EVENTS answers with the set as it was, and leaves RESET_SEEN alone (R179). -/
theorem readEvents_served (h : admitted s .shore .readEvents = true) :
    let e := s.shore.events
    ∃ t, exec (.readEvents .shore) s = .next t
      ∧ Answered .shore .readEvents ⟨.ok, .events e (if e.berth.resetSeen then some s.resetCause else none)⟩ s t
      ∧ OnlyReply { s with shore := { s.shore with
          events := ⟨Lines.const KindSet.none, { KindSet.none with resetSeen := e.berth.resetSeen }⟩
          attnLow := e.berth.resetSeen } } t := by
  obtain ⟨hrest, hanswer⟩ := request_served _ _ h nofun
  exact ⟨_, rfl, hanswer, readEvents_state s ▸ hrest⟩

theorem setMask_served {mask : KindSet} (h : admitted s .shore (.setMask mask) = true) :
    ∃ t, exec (.setMask .shore mask) s = .next t ∧ Answered .shore (.setMask mask) ⟨.ok, .empty⟩ s t
      ∧ t.shore.mask = mask
      ∧ OnlyReply { s with shore := { s.shore with
          mask := mask, attnLow := s.shore.events.berth.resetSeen || s.shore.events.meets mask } } t := by
  obtain ⟨hrest, hanswer⟩ := request_served _ _ h nofun
  exact ⟨_, rfl, hanswer, congrArg Outside.shoreMask hrest.outside, hrest⟩

theorem ackReset_shore_served (h : admitted s .shore .ackReset = true) :
    let e := s.shore.events
    let rest := { e with berth := { e.berth with resetSeen := false } }
    ∃ t, exec (.ackReset .shore) s = .next t ∧ Answered .shore .ackReset ⟨.ok, .empty⟩ s t
      ∧ t.shore.acked = true
      ∧ OnlyReply { s with shore := { s.shore with
          acked := true, events := rest, attnLow := rest.meets s.shore.mask } } t := by
  obtain ⟨hrest, hanswer⟩ := request_served _ _ h nofun
  exact ⟨_, rfl, hanswer, congrArg Outside.shoreAcked hrest.outside, hrest⟩

/-- A vessel's ACK_RESET changes the Vessel Port alone (R165). -/
theorem ackReset_vessel_served {code : Half} (h : admitted s (.vessel code) .ackReset = true) :
    ∃ t, exec (.ackReset (.vessel code)) s = .next t ∧ Answered (.vessel code) .ackReset ⟨.ok, .empty⟩ s t
      ∧ t.vessel.acked = true
      ∧ t.vessel.events = { s.vessel.events with berth := { s.vessel.events.berth with resetSeen := false } }
      ∧ t = { s with vessel := t.vessel } := by
  obtain ⟨hrest, hanswer⟩ := request_served _ _ h nofun
  refine ⟨_, rfl, hanswer, congrArg Outside.vesselAcked hrest.outside, ?_, ?_⟩
  · show (whenRunning _ s).vessel.events = _
    rw [vesselRequest_served h, (takeTx_of_reply (s := replyPlaced _ _ _) rfl).2]
    rfl
  · show whenRunning _ s = { s with vessel := (whenRunning _ s).vessel }
    obtain ⟨v, hv, -⟩ := takeTx_spec (replyPlaced code .ackReset (owner (.vessel code) .ackReset s))
    rw [vesselRequest_served h, hv]
    rfl

theorem clearCaptures_served (h : admitted s .shore .clearCaptures = true) :
    ∃ t, exec (.clearCaptures .shore) s = .next t ∧ Answered .shore .clearCaptures ⟨.ok, .empty⟩ s t
      ∧ OnlyReply { s with
          sup := { s.sup with firstOverload := none, firstFault := none, overloadCount := 0, faultCount := 0 }
          lmu := s.lmu.imap fun _ m => { m with peak := 0 } } t := by
  obtain ⟨hrest, hanswer⟩ := request_served _ _ h nofun
  exact ⟨_, rfl, hanswer, hrest⟩

/-- Settles O50, a request at a time. -/
theorem eventsAndCapturesAreCleared : Obligations.EventsAndCapturesAreCleared := by
  unfold Obligations.EventsAndCapturesAreCleared
  intro s mask code
  exact ⟨readEvents_served, setMask_served, ackReset_shore_served, ackReset_vessel_served, clearCaptures_served⟩

end Sys2Proof.Machine
end
